-- ==== Sys2Proof/Word.lean ====
section
/-!
DEFINITION. The widths of the BLERX block's storage (10_state.md R22, R31 to R36).
Every value is unsigned and every register is a byte or a 24-bit value (00_scope.md R8).
-/

namespace Sys2Proof

/-- One register, one command byte or one byte of a register file (R22). -/
abbrev Byte := BitVec 8

/-- A CRC register (R31 to R33). -/
abbrev Word24 := BitVec 24

/-- One word of a round key (41_aes.md R107). -/
abbrev KeyWord := BitVec 32

/-- KEY or BLOCK: 16 bytes, byte 0 first (R34, R35). -/
abbrev Chunk := Vector Byte 16

/-- One channel's whitening table: position 0 for the PDU-type byte, 1 to 16 for the chunk (R36). -/
abbrev MaskTable := Vector Byte 17

/-- MASK: one table for each of the three channels (R36). -/
abbrev MaskFile := Vector MaskTable 3

end Sys2Proof
end

