-- ==== Sys2Proof/Syntax.lean ====
section
/-!
DEFINITION. The commands of the BLERX block: one constructor per row of spec/opcode_table.json
(30_encoding.md R73). No command has an operand field (R74, R75, R79), so no constructor has an argument.
-/

namespace Sys2Proof

/-- The ten commands (30_encoding.md R73). -/
inductive Instr where
  /-- NOP (43_control.md R145). -/
  | nop
  /-- REV (40_conditioning.md R87). -/
  | rev
  /-- COND (40_conditioning.md R88). -/
  | cond
  /-- PDU_CHECK (40_conditioning.md R89). -/
  | pduCheck
  /-- COND_BLOCK (40_conditioning.md R90). -/
  | condBlock
  /-- KEY_DERIVE (41_aes.md R118). -/
  | keyDerive
  /-- DECRYPT (41_aes.md R119). -/
  | decrypt
  /-- VALIDATE (42_crc.md R133). -/
  | validate
  /-- CRC_INIT (42_crc.md R134). -/
  | crcInit
  /-- CRC_BYTE (42_crc.md R135). -/
  | crcByte
  deriving DecidableEq, Repr

end Sys2Proof
end

