-- ==== Sys2Proof/Decode.lean ====
section
/-!
DEFINITION. Command bytes and commands: the decoder of 30_encoding.md R72, total over all 256 bytes, the
encoder from the opcode map R73, and the (mask, match) table of R84.
-/

namespace Sys2Proof

/-- Why a byte is no command. Both are IllegalCommand to the host; the order of the checks is 60_exceptions.md R160. -/
inductive DecodeReject where
  /-- bits 7:4 are not 0 (30_encoding.md R77) -/
  | reservedBits (v : Byte)
  /-- bits 7:4 are 0 and the opcode is 0xA to 0xF (R76) -/
  | reservedOpcode (v : Byte)
  deriving DecidableEq, Repr

/-- Field `rsv`, bits 7:4 (R71). -/
def rsvField (v : Byte) : BitVec 4 := v.extractLsb' 4 4

/-- Field `op`, bits 3:0 (R71). -/
def opField (v : Byte) : BitVec 4 := v.extractLsb' 0 4

/-- The command an opcode names (R72, R73), `none` for 0xA to 0xF. -/
def opcodeCommand (op : BitVec 4) : Option Instr :=
  match op.toNat with
  | 0x0 => some .nop
  | 0x1 => some .rev
  | 0x2 => some .cond
  | 0x3 => some .pduCheck
  | 0x4 => some .condBlock
  | 0x5 => some .keyDerive
  | 0x6 => some .decrypt
  | 0x7 => some .validate
  | 0x8 => some .crcInit
  | 0x9 => some .crcByte
  | _ => none

/-- Decode a command byte (R72): the reserved bits first, then the opcode. -/
def decode (v : Byte) : Except DecodeReject Instr :=
  if rsvField v = 0 then
    match opcodeCommand (opField v) with
    | some i => .ok i
    | none => .error (.reservedOpcode v)
  else .error (.reservedBits v)

/-- The opcode of a command (R73). -/
def opcode : Instr → BitVec 4
  | .nop => 0x0
  | .rev => 0x1
  | .cond => 0x2
  | .pduCheck => 0x3
  | .condBlock => 0x4
  | .keyDerive => 0x5
  | .decrypt => 0x6
  | .validate => 0x7
  | .crcInit => 0x8
  | .crcByte => 0x9

/-- The command byte of a command: `rsv` = 0b0000 above the opcode (R71). -/
def encode (i : Instr) : Byte := (0 : BitVec 4) ++ opcode i

/-- One row of the decoder summary of R84. -/
structure TableRow where
  command : Instr
  mask : Byte
  pattern : Byte
  deriving DecidableEq, Repr

/-- The summary's rows (R84), in the order of the opcode table. -/
def commandTable : List TableRow :=
  [⟨.nop, 0xFF, 0x00⟩, ⟨.rev, 0xFF, 0x01⟩, ⟨.cond, 0xFF, 0x02⟩, ⟨.pduCheck, 0xFF, 0x03⟩, ⟨.condBlock, 0xFF, 0x04⟩,
   ⟨.keyDerive, 0xFF, 0x05⟩, ⟨.decrypt, 0xFF, 0x06⟩, ⟨.validate, 0xFF, 0x07⟩, ⟨.crcInit, 0xFF, 0x08⟩,
   ⟨.crcByte, 0xFF, 0x09⟩]

/-- A byte fits a row (R84). -/
def TableRow.fits (r : TableRow) (v : Byte) : Bool := v &&& r.mask == r.pattern

/-- The command byte of a table word: every command is exactly one byte (R79), and the bits at `nbits` and above are 0. -/
def tableWordByte (nbits w : Nat) : Byte := BitVec.ofNat 8 (w % 2 ^ nbits)

/-- What the decoder reads from an instruction whose bits are `w`, numbered as spec/opcode_table.json numbers them. -/
def decodeTableWord (nbits w : Nat) : Option Instr := (decode (tableWordByte nbits w)).toOption

end Sys2Proof
end

