-- ==== Sys2Proof/Machine/Field.lean ====
section
/-!
DEFINITION. The field GF(2^8) with reduction polynomial 0x11B and the S-boxes over it (41_aes.md sections 1 and 2).
The affine constants are the spec's rules, which it marks as general knowledge (notes/assumptions/9.md, PRESUMED).
-/

namespace Sys2Proof.Machine

/-- Multiplication by x on a polynomial of degree below 8, bit k the coefficient of x^k: doubled, with 0x11B added where
bit 7 comes out, which is `a / 128` of a byte. R101 asks for this conditional sum without a branch. -/
def timesX (a : Nat) : Nat := (2 * a) ^^^ (a / 128 * 0x11B)

/-- `xtime` (R101). -/
def xtime (a : Byte) : Byte := BitVec.ofNat 8 (timesX a.toNat)

/-- Division by x (R102). -/
def half (a : Byte) : Byte :=
  if a.getLsbD 0 then ((a.setWidth 9 ^^^ 0x11B) >>> 1).setWidth 8 else a >>> 1

/-- The loop of `gmul` (R100): while bits of `b` are left, add the running multiple of `a` where the lowest is 1. -/
def mulLoop : Nat → Nat → Nat → Nat → Nat
  | 0, _, _, r => r
  | n + 1, a, b, r => mulLoop n (timesX a) (b / 2) (r ^^^ (b % 2 * a))

/-- Multiplication in the field (R100): all eight bits of `b`. -/
def gmul (a b : Byte) : Byte := BitVec.ofNat 8 (mulLoop 8 a.toNat b.toNat 0)

/-- Field inversion as x^254, by the addition chain of R103; `ginv 0 = 0`. -/
def ginv (x : Byte) : Byte :=
  let x2 := gmul x x
  let x3 := gmul x2 x
  let x6 := gmul x3 x3
  let x12 := gmul x6 x6
  let x15 := gmul x12 x3
  let x30 := gmul x15 x15
  let x60 := gmul x30 x30
  let x120 := gmul x60 x60
  let x240 := gmul x120 x120
  let x252 := gmul x240 x12
  gmul x252 x2

/-- `rotl8(b, n)` (section 2). -/
def rotl8 (b : Byte) (n : Nat) : Byte := (b <<< n) ||| (b >>> (8 - n))

/-- The S-box (R104). -/
def subByte (x : Byte) : Byte :=
  let b := ginv x
  b ^^^ rotl8 b 1 ^^^ rotl8 b 2 ^^^ rotl8 b 3 ^^^ rotl8 b 4 ^^^ 0x63

/-- The inverse S-box (R105). -/
def invSubByte (y : Byte) : Byte := ginv (rotl8 y 1 ^^^ rotl8 y 3 ^^^ rotl8 y 6 ^^^ 0x05)

end Sys2Proof.Machine
end

