-- ==== Sys2Proof/Machine/KeySchedule.lean ====
section
/-!
DEFINITION. The AES-128 key schedule, forward and backward (41_aes.md sections 3 and 4).
-/

namespace Sys2Proof.Machine

/-- Word `j` of a round key: `K[4j] ++ K[4j+1] ++ K[4j+2] ++ K[4j+3]` (R107). -/
def keyWord (k : Chunk) (j : Fin 4) : KeyWord :=
  k[4 * j.val] ++ k[4 * j.val + 1] ++ k[4 * j.val + 2] ++ k[4 * j.val + 3]

/-- Byte `r` of a word, byte 0 the most significant (R107). -/
def wordByte (w : KeyWord) (r : Fin 4) : Byte := w.extractLsb' (24 - 8 * r.val) 8

/-- The 16-byte string of four words (R107). -/
def ofKeyWords (w : Fin 4 → KeyWord) : Chunk :=
  Vector.ofFn fun i : Fin 16 => wordByte (w ⟨i.val / 4, by omega⟩) ⟨i.val % 4, by omega⟩

/-- `RotWord(a0 ++ a1 ++ a2 ++ a3) = a1 ++ a2 ++ a3 ++ a0` (R108). -/
def rotWord (w : KeyWord) : KeyWord := wordByte w 1 ++ wordByte w 2 ++ wordByte w 3 ++ wordByte w 0

/-- `SubWord`: the S-box on each byte (R108). -/
def subWord (w : KeyWord) : KeyWord :=
  subByte (wordByte w 0) ++ subByte (wordByte w 1) ++ subByte (wordByte w 2) ++ subByte (wordByte w 3)

/-- The round-constant word of `rc` (R108). -/
def rconWord (rc : Byte) : KeyWord := rc ++ (0 : BitVec 24)

/-- What a round adds to the first word: the substituted, rotated last word and the constant (R109). -/
def scheduleCore (w3 : KeyWord) (rc : Byte) : KeyWord := subWord (rotWord w3) ^^^ rconWord rc

/-- Four words in order. -/
def fourWords (w0 w1 w2 w3 : KeyWord) : Fin 4 → KeyWord
  | 0 => w0
  | 1 => w1
  | 2 => w2
  | 3 => w3

/-- The next round key (R109). -/
def expandStep (k : Chunk) (rc : Byte) : Chunk :=
  let w0 := keyWord k 0 ^^^ scheduleCore (keyWord k 3) rc
  let w1 := keyWord k 1 ^^^ w0
  let w2 := keyWord k 2 ^^^ w1
  let w3 := keyWord k 3 ^^^ w2
  ofKeyWords (fourWords w0 w1 w2 w3)

/-- The previous round key (R110): words 3, 2 and 1 first, then word 0 from the recovered word 3. -/
def expandBack (k : Chunk) (rc : Byte) : Chunk :=
  let w3 := keyWord k 3 ^^^ keyWord k 2
  let w2 := keyWord k 2 ^^^ keyWord k 1
  let w1 := keyWord k 1 ^^^ keyWord k 0
  let w0 := keyWord k 0 ^^^ scheduleCore w3 rc
  ofKeyWords (fourWords w0 w1 w2 w3)

/-- RCON_FWD (R111). -/
def rconFwd : List Byte := [0x01, 0x02, 0x04, 0x08, 0x10, 0x20, 0x40, 0x80, 0x1B, 0x36]

/-- RCON_BACK (R121). -/
def rconBack : List Byte := [0x36, 0x1B, 0x80, 0x40, 0x20, 0x10, 0x08, 0x04, 0x02, 0x01]

/-- The decryption start key: ten forward steps, only the last result kept (R111). -/
@[irreducible] def deriveStart (k : Chunk) : Chunk := rconFwd.foldl expandStep k

end Sys2Proof.Machine
end

