-- ==== Sys2Proof/Machine/InvCipher.lean ====
section
/-!
DEFINITION. The inverse cipher of AES-128 with its round keys regenerated on the fly (41_aes.md section 5).
-/

namespace Sys2Proof.Machine

/-- `s[r][c]`: the state is filled column by column (R106). -/
def cell (st : Chunk) (r c : Fin 4) : Byte := st[r.val + 4 * c.val]

/-- The state whose cells are `f r c`, written back in the same order (R106). -/
def ofCells (f : Fin 4 → Fin 4 → Byte) : Chunk :=
  Vector.ofFn fun i : Fin 16 => f ⟨i.val % 4, by omega⟩ ⟨i.val / 4, by omega⟩

/-- Row `r` rotated right by `r`: `s'[r][c] = s[r][(c - r) mod 4]` (R112). -/
def invShiftRows (st : Chunk) : Chunk := ofCells fun r c => cell st r (c - r)

/-- The inverse S-box on all 16 bytes (R113). -/
def invSubBytes (st : Chunk) : Chunk := st.map invSubByte

/-- One row of a column's matrix product: the four products added (R114). -/
def mixRow (st : Chunk) (c : Fin 4) (m0 m1 m2 m3 : Byte) : Byte :=
  gmul (cell st 0 c) m0 ^^^ gmul (cell st 1 c) m1 ^^^ gmul (cell st 2 c) m2 ^^^ gmul (cell st 3 c) m3

/-- The inverse column mix (R114). -/
def invMixColumns (st : Chunk) : Chunk :=
  ofCells fun r c =>
    match r with
    | 0 => mixRow st c 0x0E 0x0B 0x0D 0x09
    | 1 => mixRow st c 0x09 0x0E 0x0B 0x0D
    | 2 => mixRow st c 0x0D 0x09 0x0E 0x0B
    | 3 => mixRow st c 0x0B 0x0D 0x09 0x0E

/-- The bytewise sum of the state and a round key (R115). -/
def addRoundKey (st k : Chunk) : Chunk := Vector.ofFn fun i : Fin 16 => st[i] ^^^ k[i]

/-- The rounds of `InvCipher`, one for each backward round constant; the last one omits the column mix (R116). -/
def invRounds : List Byte → Chunk → Chunk → Chunk × Chunk
  | [], st, k => (st, k)
  | rc :: rest, st, k =>
    let k' := expandBack k rc
    let added := addRoundKey (invSubBytes (invShiftRows st)) k'
    invRounds rest (if rest.isEmpty then added else invMixColumns added) k'

/-- The plaintext and the last regenerated round key (R116). -/
@[irreducible] def invCipher (ciphertext k10 : Chunk) : Chunk × Chunk := invRounds rconBack (addRoundKey ciphertext k10) k10

end Sys2Proof.Machine
end

