-- ==== Sys2Proof/Config.lean ====
section
/-!
DEFINITION. What the spec leaves open: its OPEN parameters (00_scope.md R6) and the free values its
`draw` takes (R12). None has a body that a proof can see.
-/

namespace Sys2Proof

/-- The `n`-th byte that `draw` takes (00_scope.md R12): any byte. DESIGN CHOICE (notes/assumptions/1.md): draws are
numbered by the counter `State.draws`; safe for a claim about one run. -/
opaque Config.freeByte : Nat → Byte

/-- `BASE`, the bus address of register offset 0x00 (R6; 92_eei_decisions.md D2). OPEN. -/
opaque Config.base : Nat

/-- `MASK_TABLE`, the whitening bytes the host loads (R6; D9). OPEN, and never in the block by itself. -/
opaque Config.maskTable : MaskFile

/-- `PDU_NONCONN`, the PDU type the host programs (R6; D11). OPEN. -/
opaque Config.pduNonconn : Byte

/-- How many cycles beyond the first a command holds the port. OPEN (R6; D5). -/
opaque Config.extraCycles : Instr → Nat

/-- `LAT(op)`: at least 1, finite, and a function of the command alone, not of the data
(70_reset_and_hazards.md R191). No rule and no definition of the model depends on it (notes/assumptions/5.md). -/
def Config.latency (i : Instr) : Nat := Config.extraCycles i + 1

end Sys2Proof
end

