-- ==== Sys2Proof/Machine/State.lean ====
section
/-!
DEFINITION. The state of the BLERX block (10_state.md R46), the port events the outside world puts to it
(20_memory.md section 3), and why a step can stop.
-/

namespace Sys2Proof.Machine

/-- KEY_STATE, the hidden record of where KEY stands (10_state.md R38). -/
inductive KeyState where
  /-- KEY holds bytes the host wrote -/
  | raw
  /-- KEY holds the start key that one KEY_DERIVE made from RAW -/
  | start
  /-- KEY has been consumed by a DECRYPT or by a second KEY_DERIVE -/
  | spent
  deriving DecidableEq, Repr

/-- The errors a command can report in ERRCODE (60_exceptions.md R151). -/
inductive CommandError where
  | illegalCommand
  | badChannel
  | badPosition
  deriving DecidableEq, Repr

/-- Who drives a bus transaction (60_exceptions.md R168). -/
inductive Master where
  /-- the one admitted bus master -/
  | host
  /-- any other -/
  | other
  deriving DecidableEq, Repr

/-- What a bus transaction asks for, at a byte offset of the window (20_memory.md R50, R52). -/
inductive BusOp where
  | read (offset : Byte)
  | write (offset value : Byte)
  deriving DecidableEq, Repr

/-- What the outside world does to the block next. -/
inductive PortEvent where
  /-- a bus transaction of `size` bytes (20_memory.md R52) -/
  | access (master : Master) (size : Nat) (op : BusOp)
  /-- reset, between transactions (70_reset_and_hazards.md R180) -/
  | reset
  /-- reset while this host transaction is in progress (R180) -/
  | resetDuring (op : BusOp)
  /-- the platform takes the block's power or clock away and gives it back (60_exceptions.md R170) -/
  | powerGate
  deriving DecidableEq, Repr

/-- Reasons to stop with a fault: there is none. The block has no trap, no bus error and no stall (60_exceptions.md R150;
20_memory.md R59); a rejected command completes with a code in ERRCODE (R151, R152). -/
inductive Fault where
  deriving DecidableEq, Repr

/-- Reasons the model gives an event no meaning. -/
inductive Refusal where
  /-- raised by no arm of `exec`: an instruction that has no meaning in the model yet. Safe. -/
  | notModelled (mnemonic : String)
  /-- raised by `perform`: a bus transaction of another size than one byte, which 20_memory.md R52 has a model refuse. Safe. -/
  | accessSize (size : Nat)
  /-- raised by `perform`: a transaction of a second bus master, which 60_exceptions.md R168 has a model refuse. Safe. -/
  | secondMaster
  /-- raised by `perform`: a transaction after a power gate and before the reset that must precede use (R170). Safe. -/
  | needsReset
  deriving DecidableEq, Repr

/-- Everything the block holds between two host transactions (10_state.md R46), and after it four fields of the model's
own. -/
structure State where
  /-- CHANNEL[1:0] (R26) -/
  channel : BitVec 2
  /-- POS[4:0] (R27) -/
  pos : BitVec 5
  /-- DIN (R28) -/
  din : Byte
  /-- DOUT (R29) -/
  dout : Byte
  /-- PDU_TYPE (R30) -/
  pduType : Byte
  /-- ERRCODE (R25); STATUS.ERR is a view of it (R42) -/
  errcode : Byte
  /-- STATUS.VALID (R40) -/
  valid : Bool
  /-- STATUS.PDU_MATCH (R41) -/
  pduMatch : Bool
  /-- CRC_EMB (R31) -/
  crcEmb : Word24
  /-- CRC_CALC (R32) -/
  crcCalc : Word24
  /-- CRC_ACC (R33) -/
  crcAcc : Word24
  /-- KEY[0] to KEY[15] (R34) -/
  key : Chunk
  /-- BLOCK[0] to BLOCK[15] (R35) -/
  block : Chunk
  /-- MASK[c][p] (R36) -/
  mask : MaskFile
  /-- the hidden KEY_STATE (R38) -/
  keyState : KeyState
  /-- the model's own: how many free bytes `draw` has taken (notes/assumptions/1.md) -/
  draws : Nat
  /-- the model's own: what the outside world will do, oldest first (notes/assumptions/2.md) -/
  pending : List PortEvent
  /-- the model's own: the bytes the host's reads have returned, oldest first (notes/assumptions/2.md) -/
  replies : List Byte
  /-- the model's own: a power gate has come and no reset since (notes/assumptions/7.md) -/
  needsReset : Bool
  deriving DecidableEq, Repr

/-- The block right after reset (70_reset_and_hazards.md R181), with no event pending. DESIGN CHOICE for the model's own
four fields (notes/assumptions/1.md, 2.md, 7.md). -/
def State.reset : State where
  channel := 0
  pos := 0
  din := 0x00
  dout := 0x00
  pduType := 0x00
  errcode := 0x00
  valid := false
  pduMatch := false
  crcEmb := 0x000000
  crcCalc := 0x000000
  crcAcc := 0xB704CE
  key := Vector.replicate 16 0x00
  block := Vector.replicate 16 0x00
  mask := Vector.replicate 3 (Vector.replicate 17 0x00)
  keyState := .raw
  draws := 0
  pending := []
  replies := []
  needsReset := false

end Sys2Proof.Machine
end

