-- ==== Sys2Proof/Machine/Flags.lean ====
section
/-!
DEFINITION. The flags and the STATUS byte (10_state.md R24, R40 to R42).
-/

namespace Sys2Proof.Machine

/-- STATUS.ERR, a view of ERRCODE (R42). -/
def State.err (s : State) : Bool := s.errcode != 0

/-- The STATUS byte: bit 0 VALID, bit 1 PDU_MATCH, bit 2 ERR, bits 7:3 read as 0 (R24). -/
def status (s : State) : Byte :=
  (0 : BitVec 5) ++ BitVec.ofBool s.err ++ BitVec.ofBool s.pduMatch ++ BitVec.ofBool s.valid

/-- What VALIDATE puts in STATUS.VALID (R40; 42_crc.md R133). -/
def crcAgrees (embedded computed : Word24) : Bool := embedded == computed

/-- What PDU_CHECK puts in STATUS.PDU_MATCH: the whole byte is compared (R41; 40_conditioning.md R89). -/
def pduAgrees (conditioned pduType : Byte) : Bool := conditioned == pduType

end Sys2Proof.Machine
end

