-- ==== Sys2Proof/Machine/Ops.lean ====
section
/-!
DEFINITION. The named operations over the state: one setter a field, the two ways a command ends, `draw`, reset, and
the register window (10_state.md section 2).
-/

namespace Sys2Proof.Machine

def State.setChannel (s : State) (v : BitVec 2) : State := { s with channel := v }
def State.setPos (s : State) (v : BitVec 5) : State := { s with pos := v }
def State.setDin (s : State) (v : Byte) : State := { s with din := v }
def State.setDout (s : State) (v : Byte) : State := { s with dout := v }
def State.setPduType (s : State) (v : Byte) : State := { s with pduType := v }
def State.setErrcode (s : State) (v : Byte) : State := { s with errcode := v }
def State.setValid (s : State) (v : Bool) : State := { s with valid := v }
def State.setPduMatch (s : State) (v : Bool) : State := { s with pduMatch := v }
def State.setCrcEmb (s : State) (v : Word24) : State := { s with crcEmb := v }
def State.setCrcCalc (s : State) (v : Word24) : State := { s with crcCalc := v }
def State.setCrcAcc (s : State) (v : Word24) : State := { s with crcAcc := v }
def State.setKey (s : State) (v : Chunk) : State := { s with key := v }
def State.setBlock (s : State) (v : Chunk) : State := { s with block := v }
def State.setMask (s : State) (v : MaskFile) : State := { s with mask := v }
def State.setKeyState (s : State) (v : KeyState) : State := { s with keyState := v }
def State.setDraws (s : State) (v : Nat) : State := { s with draws := v }
def State.setPending (s : State) (v : List PortEvent) : State := { s with pending := v }
def State.setReplies (s : State) (v : List Byte) : State := { s with replies := v }
def State.setNeedsReset (s : State) (v : Bool) : State := { s with needsReset := v }

/-! ### How a command ends -/

/-- The code of an error (60_exceptions.md R151). -/
def CommandError.code : CommandError → Byte
  | .illegalCommand => 0x01
  | .badChannel => 0x02
  | .badPosition => 0x03

/-- `raise E`: the command stops, ERRCODE takes the code, and everything else stays as it was before the command
(00_scope.md R11; 60_exceptions.md R152). This is all the exception entry the block has (R162). -/
def raise (e : CommandError) (s : State) : Host.Outcome State Fault Refusal := .next (s.setErrcode e.code)

/-- A command completes: ERRCODE is 0x00 (R153), which is also the only way back from an error (R163). -/
def complete (s : State) : Host.Outcome State Fault Refusal := .next (s.setErrcode 0x00)

/-! ### Drawn values (00_scope.md R12) -/

/-- 16 free bytes, from the `n`-th on. -/
@[irreducible] def drawBytes (n : Nat) : Chunk := Vector.ofFn fun i : Fin 16 => Config.freeByte (n + i.val)

/-- The 16 bytes that `draw(16)` gives in this state: free values. -/
def drawChunk (s : State) : Chunk := drawBytes s.draws

/-- The state after a `draw(16)`: the next draw takes other bytes. -/
def afterDraw (s : State) : State := s.setDraws (s.draws + 16)

/-! ### Reset (70_reset_and_hazards.md R180, R181) -/

/-- The reset event: every piece of the block's state takes its reset value. What the host has read, what it will do
and how many bytes have been drawn are not the block's, and stay. -/
def resetBlock (s : State) : State :=
  ((State.reset.setDraws s.draws).setPending s.pending).setReplies s.replies

/-! ### The register window (10_state.md R22) -/

/-- What stands at an offset of the window. -/
inductive Reg where
  | cmd
  | status
  | errcode
  | channel
  | pos
  | din
  | dout
  | pduType
  /-- byte `i` of CRC_EMB, the most significant first (R31) -/
  | crcEmb (i : Fin 3)
  /-- byte `i` of CRC_CALC (R32) -/
  | crcCalc (i : Fin 3)
  /-- byte `i` of CRC_ACC (R33) -/
  | crcAcc (i : Fin 3)
  | key (i : Fin 16)
  | block (i : Fin 16)
  | mask (c : Fin 3) (p : Fin 17)
  /-- reads as zero, ignores writes (R37) -/
  | reserved
  deriving DecidableEq, Repr

/-- The named registers and files at offset `n` (R22), `reserved` elsewhere. -/
def regAtNat (n : Nat) : Reg :=
  match n with
  | 0x00 => .cmd
  | 0x01 => .status
  | 0x02 => .errcode
  | 0x03 => .channel
  | 0x04 => .pos
  | 0x05 => .din
  | 0x06 => .dout
  | 0x07 => .pduType
  | 0x08 => .crcEmb 0
  | 0x09 => .crcEmb 1
  | 0x0A => .crcEmb 2
  | 0x0C => .crcCalc 0
  | 0x0D => .crcCalc 1
  | 0x0E => .crcCalc 2
  | 0x10 => .crcAcc 0
  | 0x11 => .crcAcc 1
  | 0x12 => .crcAcc 2
  | _ =>
    if h : 0x20 ≤ n ∧ n ≤ 0x2F then .key ⟨n - 0x20, by omega⟩
    else if h : 0x30 ≤ n ∧ n ≤ 0x3F then .block ⟨n - 0x30, by omega⟩
    else if h : 0x40 ≤ n ∧ n ≤ 0x50 then .mask 0 ⟨n - 0x40, by omega⟩
    else if h : 0x60 ≤ n ∧ n ≤ 0x70 then .mask 1 ⟨n - 0x60, by omega⟩
    else if h : 0x80 ≤ n ∧ n ≤ 0x90 then .mask 2 ⟨n - 0x80, by omega⟩
    else .reserved

/-- What stands at an offset (R22). -/
def regAt (offset : Byte) : Reg := regAtNat offset.toNat

/-- The offset of a register (R22): KEY at 0x20 + i, BLOCK at 0x30 + i, MASK at 0x40 + 0x20 c + p. Reserved offsets are
many, so they have none. -/
def Reg.offset : Reg → Option Byte
  | .cmd => some 0x00
  | .status => some 0x01
  | .errcode => some 0x02
  | .channel => some 0x03
  | .pos => some 0x04
  | .din => some 0x05
  | .dout => some 0x06
  | .pduType => some 0x07
  | .crcEmb i => some (BitVec.ofNat 8 (0x08 + i.val))
  | .crcCalc i => some (BitVec.ofNat 8 (0x0C + i.val))
  | .crcAcc i => some (BitVec.ofNat 8 (0x10 + i.val))
  | .key i => some (BitVec.ofNat 8 (0x20 + i.val))
  | .block i => some (BitVec.ofNat 8 (0x30 + i.val))
  | .mask c p => some (BitVec.ofNat 8 (0x40 + 0x20 * c.val + p.val))
  | .reserved => none

/-- Byte `i` of a 24-bit register, big-endian over ascending offsets (20_memory.md R53). -/
def byteOf24 (w : Word24) (i : Fin 3) : Byte := w.extractLsb' (16 - 8 * i.val) 8

/-- MASK[c][p] (00_scope.md R9). -/
def maskByte (s : State) (c : Fin 3) (p : Fin 17) : Byte := (s.mask[c])[p]

/-- What a register reads as: write-only CMD and reserved offsets read 0x00, unused bits of CHANNEL, POS and STATUS read
as 0 (10_state.md R23 to R37). KEY is readable in every KEY_STATE (20_memory.md R61). -/
def readRegister (s : State) : Reg → Byte
  | .cmd => 0x00
  | .status => status s
  | .errcode => s.errcode
  | .channel => s.channel.setWidth 8
  | .pos => s.pos.setWidth 8
  | .din => s.din
  | .dout => s.dout
  | .pduType => s.pduType
  | .crcEmb i => byteOf24 s.crcEmb i
  | .crcCalc i => byteOf24 s.crcCalc i
  | .crcAcc i => byteOf24 s.crcAcc i
  | .key i => s.key[i]
  | .block i => s.block[i]
  | .mask c p => maskByte s c p
  | .reserved => 0x00

/-- A byte written to a register, but for the command that a write to CMD runs: read-only registers and reserved offsets
ignore it (20_memory.md R59), CHANNEL and POS keep their low bits (10_state.md R26, R27), and a write to any KEY byte
makes KEY a fresh key (R34, R39). -/
def writeRegister (s : State) (r : Reg) (v : Byte) : State :=
  match r with
  | .cmd => s
  | .status => s
  | .errcode => s
  | .channel => s.setChannel (v.extractLsb' 0 2)
  | .pos => s.setPos (v.extractLsb' 0 5)
  | .din => s.setDin v
  | .dout => s
  | .pduType => s.setPduType v
  | .crcEmb _ => s
  | .crcCalc _ => s
  | .crcAcc _ => s
  | .key i => (s.setKey (s.key.set i v)).setKeyState .raw
  | .block i => s.setBlock (s.block.set i v)
  | .mask c p => s.setMask (s.mask.set c ((s.mask[c]).set p v))
  | .reserved => s

/-- The byte a host read of an offset returns (20_memory.md R57, R59). -/
def readWindow (s : State) (offset : Byte) : Byte := readRegister s (regAt offset)

/-- The state after a host write to an offset other than CMD (20_memory.md R57, R59). -/
def writeWindow (s : State) (offset v : Byte) : State := writeRegister s (regAt offset) v

end Sys2Proof.Machine
end

