-- ==== Sys2Proof/Machine/Operands.lean ====
section
/-!
DEFINITION. The operands a command finds in registers (30_encoding.md R74, R75, R82, R83).
-/

namespace Sys2Proof.Machine

/-- Channel decode (R82): 0, 1 and 2 select a table, 3 is BadChannel (60_exceptions.md R155). -/
def selectedChannel (s : State) : Except CommandError (Fin 3) :=
  if h : s.channel.toNat < 3 then .ok ⟨s.channel.toNat, h⟩ else .error .badChannel

/-- Position decode (R83): 0 to 16 select a mask byte, 17 to 31 are BadPosition (60_exceptions.md R156). -/
def selectedPosition (s : State) : Except CommandError (Fin 17) :=
  if h : s.pos.toNat < 17 then .ok ⟨s.pos.toNat, h⟩ else .error .badPosition

/-- The mask operand of COND, channel checked before position (60_exceptions.md R160). -/
def selectedMaskByte (s : State) : Except CommandError Byte :=
  match selectedChannel s with
  | .error e => .error e
  | .ok c =>
    match selectedPosition s with
    | .error e => .error e
    | .ok p => .ok (maskByte s c p)

end Sys2Proof.Machine
end

