-- ==== Sys2Proof/Machine/Aes.lean ====
section
/-!
DEFINITION. The AES commands (41_aes.md section 6). Misuse of the key is no error (60_exceptions.md R157): it completes
with drawn values.
-/

namespace Sys2Proof.Machine

/-- KEY <- draw(16), and the draw is used up (00_scope.md R12). -/
def drawKey (s : State) : State := afterDraw (s.setKey (drawChunk s))

/-- BLOCK <- draw(16), and the draw is used up (00_scope.md R12). -/
def drawBlock (s : State) : State := afterDraw (s.setBlock (drawChunk s))

/-- KEY_DERIVE (R118): from RAW, the start key in place; otherwise KEY is drawn and spent. -/
def execKeyDerive (s : State) : Host.Outcome State Fault Refusal :=
  match s.keyState with
  | .raw => complete ((s.setKey (deriveStart s.key)).setKeyState .start)
  | .start => complete ((drawKey s).setKeyState .spent)
  | .spent => complete ((drawKey s).setKeyState .spent)

/-- DECRYPT's new BLOCK (R119): the plaintext if KEY is a start key, otherwise a drawn value. -/
def decryptBlock (s : State) : State :=
  match s.keyState with
  | .start => s.setBlock (invCipher s.block s.key).1
  | .raw => drawBlock s
  | .spent => drawBlock s

/-- DECRYPT (R119): KEY is drawn and spent in every case (90_conflicts.md C2). The order of the two draws of a misuse
is the model's (DESIGN CHOICE, notes/assumptions/1.md). -/
def execDecrypt (s : State) : Host.Outcome State Fault Refusal :=
  complete ((drawKey (decryptBlock s)).setKeyState .spent)

end Sys2Proof.Machine
end

