-- ==== Sys2Proof/Machine/BitOrder.lean ====
section
/-!
DEFINITION. Bit reversal and whitening of one byte (40_conditioning.md sections 1 and 3).
-/

namespace Sys2Proof.Machine

/-- One bit of a byte as a vector of width 1. -/
def bitOf (x : Byte) (k : Nat) : BitVec 1 := BitVec.ofBool (x.getLsbD k)

/-- Reverse the bits of a byte: `x[0]` becomes bit 7 (R85). -/
def rev8 (x : Byte) : Byte :=
  bitOf x 0 ++ bitOf x 1 ++ bitOf x 2 ++ bitOf x 3 ++ bitOf x 4 ++ bitOf x 5 ++ bitOf x 6 ++ bitOf x 7

/-- Condition a raw byte: reverse first, then remove the mask (R86). -/
def conditionByte (x m : Byte) : Byte := rev8 x ^^^ m

/-- The raw byte that conditions to `y` under mask `m` (R91, R93). -/
def unconditionByte (y m : Byte) : Byte := rev8 (y ^^^ m)

/-- Condition the 16 chunk bytes: byte `i` is at mask position `1 + i`, and position 0 is not used (R90). -/
@[irreducible] def conditionChunk (b : Chunk) (table : MaskTable) : Chunk :=
  Vector.ofFn fun i : Fin 16 => conditionByte b[i] table[1 + i.val]

/-- The raw chunk that conditions to `b` under a table: the transmitter's side, for building inputs (R93). -/
def unconditionChunk (b : Chunk) (table : MaskTable) : Chunk :=
  Vector.ofFn fun i : Fin 16 => unconditionByte b[i] table[1 + i.val]

end Sys2Proof.Machine
end

