-- ==== Sys2Proof/Machine/Conditioning.lean ====
section
/-!
DEFINITION. The bit conditioning commands (40_conditioning.md section 2).
-/

namespace Sys2Proof.Machine

/-- REV (R87): reverse DIN into DOUT; CHANNEL and POS are not read. -/
def execRev (s : State) : Host.Outcome State Fault Refusal := complete (s.setDout (rev8 s.din))

/-- COND (R88): condition DIN with the mask byte that CHANNEL and POS select. -/
def execCond (s : State) : Host.Outcome State Fault Refusal :=
  match selectedMaskByte s with
  | .error e => raise e s
  | .ok m => complete (s.setDout (conditionByte s.din m))

/-- PDU_CHECK (R89): condition DIN at position 0 and compare it with PDU_TYPE; POS is not read. -/
def execPduCheck (s : State) : Host.Outcome State Fault Refusal :=
  match selectedChannel s with
  | .error e => raise e s
  | .ok c =>
    let t := conditionByte s.din (maskByte s c 0)
    complete ((s.setDout t).setPduMatch (pduAgrees t s.pduType))

/-- COND_BLOCK (R90): condition the 16 chunk bytes in place, all at once; POS is not read. -/
def execCondBlock (s : State) : Host.Outcome State Fault Refusal :=
  match selectedChannel s with
  | .error e => raise e s
  | .ok c => complete (s.setBlock (conditionChunk s.block s.mask[c]))

end Sys2Proof.Machine
end

