-- ==== Sys2Proof/Machine/Control.lean ====
section
/-!
DEFINITION. The control command (43_control.md).
-/

namespace Sys2Proof.Machine

/-- NOP (R145): only ERRCODE is written. -/
def execNop (s : State) : Host.Outcome State Fault Refusal := complete s

end Sys2Proof.Machine
end

