-- ==== Sys2Proof/Machine/Crc24.lean ====
section
/-!
DEFINITION. CRC-24 and the mask it keys onto a chunk (42_crc.md section 1).
-/

namespace Sys2Proof.Machine

/-- CRC_POLY, with its x^24 term (00_scope.md R5). -/
def crcPoly : BitVec 25 := 0x1864CFB

/-- The CRC initial value (00_scope.md R5; 42_crc.md R131). -/
def crcInitial : Word24 := 0xB704CE

/-- One bit of `crc24_step`: shift left, and if bit 24 comes out set, add the polynomial (R130). -/
def crcShift (c : BitVec 25) : BitVec 25 :=
  let d := c <<< 1
  if d.getLsbD 24 then d ^^^ crcPoly else d

/-- `n` bits of `crc24_step` (R130). -/
def crcShifts : Nat → BitVec 25 → BitVec 25
  | 0, c => c
  | n + 1, c => crcShifts n (crcShift c)

/-- Feed one byte, most significant bit first (R130). -/
def crc24Step (crc : Word24) (b : Byte) : Word24 :=
  (crcShifts 8 (crc.setWidth 25 ^^^ (b.setWidth 25 <<< 16))).setWidth 24

/-- The CRC of a byte string (R131). -/
@[irreducible] def crc24 (bytes : List Byte) : Word24 := bytes.foldl crc24Step crcInitial

/-- The embedded CRC: BLOCK[0] is the most significant byte (20_memory.md R54; 42_crc.md R132, R133). -/
@[irreducible] def embeddedCrc (b : Chunk) : Word24 := b[0] ++ b[1] ++ b[2]

/-- The mask of block byte `i`, for `i` in 3 to 15: the low byte of the embedded CRC shifted right by `i - 3` (R132). -/
def unmaskByte (e : Word24) (i : Nat) : Byte := (e >>> (i - 3)).setWidth 8

/-- Remove the mask from bytes 3 to 15; bytes 0 to 2 do not change (R132). -/
@[irreducible] def unmask (b : Chunk) : Chunk :=
  Vector.ofFn fun i : Fin 16 => if i.val < 3 then b[i] else b[i] ^^^ unmaskByte (embeddedCrc b) i.val

/-- The 13 logical bytes of a chunk, block bytes 3 to 15 (R133). -/
def logicalBytes (b : Chunk) : List Byte := b.toList.drop 3

/-- The decrypted chunk whose 13 logical bytes are `l`, for building inputs (R138). -/
def buildChunk (l : Vector Byte 13) : Chunk :=
  let c := crc24 l.toList
  Vector.ofFn fun i : Fin 16 =>
    if h : i.val < 3 then c.extractLsb' (16 - 8 * i.val) 8
    else l[i.val - 3] ^^^ unmaskByte c i.val

end Sys2Proof.Machine
end

