-- ==== Sys2Proof/Machine/Crc.lean ====
section
/-!
DEFINITION. The CRC-24 commands (42_crc.md section 2).
-/

namespace Sys2Proof.Machine

/-- VALIDATE (R133): unmask the chunk in place, whether or not the check succeeds, and record both CRCs. -/
def execValidate (s : State) : Host.Outcome State Fault Refusal :=
  let e := embeddedCrc s.block
  let u := unmask s.block
  let c := crc24 (logicalBytes u)
  complete ((((s.setBlock u).setCrcEmb e).setCrcCalc c).setValid (crcAgrees e c))

/-- CRC_INIT (R134): start a fresh CRC. -/
def execCrcInit (s : State) : Host.Outcome State Fault Refusal := complete (s.setCrcAcc crcInitial)

/-- CRC_BYTE (R135): feed DIN, unconditioned, to the generator. -/
def execCrcByte (s : State) : Host.Outcome State Fault Refusal := complete (s.setCrcAcc (crc24Step s.crcAcc s.din))

end Sys2Proof.Machine
end

