-- ==== Sys2Proof/Machine/Dispatch.lean ====
section
/-!
DEFINITION. One arm for each command (30_encoding.md R72, R73).
-/

namespace Sys2Proof.Machine

def exec (i : Instr) (s : State) : Host.Outcome State Fault Refusal :=
  match i with
  | .nop => Sys2Proof.Machine.execNop s
  | .rev => Sys2Proof.Machine.execRev s
  | .cond => Sys2Proof.Machine.execCond s
  | .pduCheck => Sys2Proof.Machine.execPduCheck s
  | .condBlock => Sys2Proof.Machine.execCondBlock s
  | .keyDerive => Sys2Proof.Machine.execKeyDerive s
  | .decrypt => Sys2Proof.Machine.execDecrypt s
  | .validate => Sys2Proof.Machine.execValidate s
  | .crcInit => Sys2Proof.Machine.execCrcInit s
  | .crcByte => Sys2Proof.Machine.execCrcByte s

end Sys2Proof.Machine
end

