-- ==== Sys2Proof/Machine/Port.lean ====
section
/-!
DEFINITION. What the block does with one event at its port (20_memory.md section 3; 70_reset_and_hazards.md R180).
-/

namespace Sys2Proof.Machine

/-- A write of byte `v` to CMD issues command `v`, and completes when the command has (10_state.md R23; 20_memory.md R56).
A byte that names no command is IllegalCommand (60_exceptions.md R154). -/
def issueCommand (v : Byte) (s : State) : Host.Outcome State Fault Refusal :=
  match decode v with
  | .ok i => exec i s
  | .error _ => raise .illegalCommand s

/-- A one-byte write of the host (20_memory.md R57, R59). -/
def hostWrite (offset v : Byte) (s : State) : Host.Outcome State Fault Refusal :=
  if regAt offset = .cmd then issueCommand v s else .next (writeWindow s offset v)

/-- A one-byte read of the host: the block does not change, and the host gets the byte (20_memory.md R57). -/
def hostRead (offset : Byte) (s : State) : Host.Outcome State Fault Refusal :=
  .next (s.setReplies (s.replies ++ [readWindow s offset]))

/-- A one-byte transaction of the host. -/
def hostAccess (op : BusOp) (s : State) : Host.Outcome State Fault Refusal :=
  match op with
  | .read offset => hostRead offset s
  | .write offset v => hostWrite offset v s

/-- A bus transaction: only the host's, only one byte, and only once a reset has followed a power gate
(60_exceptions.md R168; 20_memory.md R52; R170). The order of the refusals is the model's (DEDUCED, notes/assumptions/12.md). -/
def busAccess (master : Master) (size : Nat) (op : BusOp) (s : State) : Host.Outcome State Fault Refusal :=
  match master with
  | .other => .refused .secondMaster
  | .host =>
    if s.needsReset then .refused .needsReset
    else if size = 1 then hostAccess op s
    else .refused (.accessSize size)

/-- One event at the port. A transaction that reset cuts has no result and no effect of its own, and the state is the
reset state (70_reset_and_hazards.md R180; DEDUCED, notes/assumptions/6.md). A power gate leaves the block unusable
until reset (60_exceptions.md R170; DESIGN CHOICE, notes/assumptions/7.md). -/
def perform (e : PortEvent) (s : State) : Host.Outcome State Fault Refusal :=
  match e with
  | .access master size op => busAccess master size op s
  | .reset => .next (resetBlock s)
  | .resetDuring _ => .next (resetBlock s)
  | .powerGate => .next (s.setNeedsReset true)

/-- The oldest pending event is performed; with none pending the block is idle (70_reset_and_hazards.md R182;
DESIGN CHOICE, notes/assumptions/2.md). -/
def portStep (s : State) : Host.Outcome State Fault Refusal :=
  match s.pending with
  | [] => .next s
  | e :: rest => perform e (s.setPending rest)

/-- The host puts a command byte on the port, to be performed next. A block that waits for reset is made usable, which
the command needs (notes/assumptions/2.md). -/
def placeCommand (s : State) (v : Byte) : State :=
  (s.setPending (.access .host 1 (.write 0x00 v) :: s.pending)).setNeedsReset false

end Sys2Proof.Machine
end

