-- ==== Sys2Proof/Machine/Step.lean ====
section
/-!
DEFINITION. One step: one event at the port (20_memory.md R56).
-/

namespace Sys2Proof.Machine

/-- One step of the machine (20_memory.md R56, R62). -/
def step (s : State) : Host.Outcome State Fault Refusal := portStep s

/-- `s` with the command byte of a table word placed where `step` takes its next command: the write to CMD that the host
makes next (30_encoding.md R70; notes/assumptions/2.md). -/
def State.withFetchWord (s : State) (nbits w : Nat) : State := placeCommand s (tableWordByte nbits w)

end Sys2Proof.Machine
end

