-- ==== Sys2Proof/Machine/ForwardCipher.lean ====
section
/-!
DEFINITION. The standard forward cipher AES-128, which 41_aes.md R117 names in its correctness requirement. It is no
command of the block (00_scope.md R4): no meaning calls it, and it stands here to state that requirement and to build
inputs. PRESUMED (notes/assumptions/10.md): the spec gives only its steps' names and their constants
(93_implementation_defined.md G10).
-/

namespace Sys2Proof.Machine

/-- Row `r` rotated left by `r` (G10). -/
def shiftRows (st : Chunk) : Chunk := ofCells fun r c => cell st r (c + r)

/-- The S-box on all 16 bytes (G10). -/
def subBytes (st : Chunk) : Chunk := st.map subByte

/-- The forward column mix, coefficients 02 03 01 01 (G10). -/
def mixColumns (st : Chunk) : Chunk :=
  ofCells fun r c =>
    match r with
    | 0 => mixRow st c 0x02 0x03 0x01 0x01
    | 1 => mixRow st c 0x01 0x02 0x03 0x01
    | 2 => mixRow st c 0x01 0x01 0x02 0x03
    | 3 => mixRow st c 0x03 0x01 0x01 0x02

/-- The forward rounds, one for each round constant; the last one omits the column mix (90_conflicts.md C4). -/
def fwdRounds : List Byte → Chunk → Chunk → Chunk
  | [], st, _ => st
  | rc :: rest, st, k =>
    let k' := expandStep k rc
    let shifted := shiftRows (subBytes st)
    fwdRounds rest (addRoundKey (if rest.isEmpty then shifted else mixColumns shifted) k') k'

/-- `AES128_Encrypt(P, K)` (41_aes.md R117). -/
def aesEncrypt (plaintext key : Chunk) : Chunk := fwdRounds rconFwd (addRoundKey plaintext key) key

end Sys2Proof.Machine
end

