-- ==== Sys2Proof/Machine/HostSequence.lean ====
section
/-!
DEFINITION. The host's side of the port: bus primitives (00_scope.md R10), the assembler notation and its
pseudo-instructions (30_encoding.md R80, R81), the boot and per-chunk sequences (70_reset_and_hazards.md R184), the
transmitter's side for building inputs (40_conditioning.md R93; 42_crc.md R138), and what the host reads in a validated
chunk (10_state.md R48, R49). Host branches and loops are host software (43_control.md R146; notes/assumptions/11.md).
-/

namespace Sys2Proof.Machine

/-! ### Bus primitives (00_scope.md R10) -/

/-- The bus address of an offset (20_memory.md R50). -/
def busAddress (offset : Byte) : Nat := Config.base + offset.toNat

/-- The offset a bus address selects, `none` outside BASE to BASE + 0xFF: that is no access to the block (R50). -/
def selectOffset (address : Nat) : Option Byte :=
  if Config.base ≤ address ∧ address ≤ Config.base + 0xFF then some (BitVec.ofNat 8 (address - Config.base)) else none

/-- `MemRead(address, size)` as an event at the port (R10). -/
def memRead (address size : Nat) : Option PortEvent :=
  (selectOffset address).map fun offset => .access .host size (.read offset)

/-- `MemWrite(address, size, v)` as an event at the port (R10). -/
def memWrite (address size : Nat) (v : Byte) : Option PortEvent :=
  (selectOffset address).map fun offset => .access .host size (.write offset v)

/-! ### Lines of host notation (30_encoding.md R80) -/

/-- `W off, v` -/
def lineW (offset v : Byte) : PortEvent := .access .host 1 (.write offset v)

/-- `R off` -/
def lineR (offset : Byte) : PortEvent := .access .host 1 (.read offset)

/-- `C MNEMONIC` -/
def lineC (i : Instr) : PortEvent := lineW 0x00 (encode i)

/-- `W base + i, b[i]` for each byte of a string, ascending. R81 uses it within the window only. -/
def writeRun (base : Nat) : List Byte → List PortEvent
  | [] => []
  | b :: rest => lineW (BitVec.ofNat 8 base) b :: writeRun (base + 1) rest

/-- `R base + i` for `count` offsets, ascending. An offset past 0xFF is no offset of the window, and its read is no
event of the block (DESIGN CHOICE, notes/assumptions/13.md). -/
def readRun (base count : Nat) : List PortEvent :=
  ((List.range count).filter fun i => base + i ≤ 0xFF).map fun i => lineR (BitVec.ofNat 8 (base + i))

/-! ### Pseudo-instructions (R81): each is exactly its expansion -/

/-- `LDKEY k0..k15` -/
def pseudoLdKey (k : Chunk) : List PortEvent := writeRun 0x20 k.toList

/-- `LDBLK b0..b15` -/
def pseudoLdBlk (b : Chunk) : List PortEvent := writeRun 0x30 b.toList

/-- `RDBLK` -/
def pseudoRdBlk : List PortEvent := readRun 0x30 16

/-- `LDMASK c, m0..m16` -/
def pseudoLdMask (c : Fin 3) (m : MaskTable) : List PortEvent := writeRun (0x40 + 0x20 * c.val) m.toList

/-- `RD24 off`: three reads, the most significant byte first. At 0xFE and 0xFF, where R81 leaves open what `off + 1` and
`off + 2` read, the reads past the window are not the block's (DESIGN CHOICE, notes/assumptions/13.md). -/
def pseudoRd24 (offset : Byte) : List PortEvent := readRun offset.toNat 3

/-- The value the host makes of `RD24`'s three bytes. -/
def rd24Value (h m l : Byte) : Word24 := h ++ m ++ l

/-- `CONDB x, c, p` -/
def pseudoCondB (x c p : Byte) : List PortEvent := [lineW 0x03 c, lineW 0x04 p, lineW 0x05 x, lineC .cond, lineR 0x06]

/-- `CHUNK` -/
def pseudoChunk : List PortEvent := [lineC .condBlock, lineC .decrypt, lineC .validate, lineR 0x01]

/-! ### The host's sequences (70_reset_and_hazards.md R184) -/

/-- Steps 1 and 2, once after reset: load the three tables and PDU_TYPE. -/
def bootSequence : List PortEvent :=
  pseudoLdMask 0 Config.maskTable[0] ++ pseudoLdMask 1 Config.maskTable[1] ++ pseudoLdMask 2 Config.maskTable[2]
    ++ [lineW 0x07 Config.pduNonconn]

/-- Steps 3 and 4: the frame's channel and its raw PDU-type byte. The host branches on the STATUS byte it reads. -/
def frameHeadSequence (channel rawPdu : Byte) : List PortEvent :=
  [lineW 0x03 channel, lineW 0x05 rawPdu, lineC .pduCheck, lineR 0x01]

/-- Steps 5 to 9 up to the read of STATUS: a fresh key, its derivation, the raw chunk, and CHUNK. -/
def chunkSequence (key raw : Chunk) : List PortEvent :=
  pseudoLdKey key ++ [lineC .keyDerive] ++ pseudoLdBlk raw ++ pseudoChunk

/-! ### The transmitter's side, for building inputs (out of the block, 00_scope.md R4) -/

/-- The raw bytes on air of a chunk with logical bytes `l`, under a key and a whitening table
(42_crc.md R138, 41_aes.md R117, 40_conditioning.md R93). -/
def airChunk (l : Vector Byte 13) (key : Chunk) (table : MaskTable) : Chunk :=
  unconditionChunk (aesEncrypt (buildChunk l) key) table

/-! ### The index byte, for the host after VALIDATE (10_state.md R49) -/

/-- `terminal = BLOCK[3][7]` -/
def chunkTerminal (b : Chunk) : Bool := b[3].getLsbD 7

/-- `partial = BLOCK[3][6]` -/
def chunkPartial (b : Chunk) : Bool := b[3].getLsbD 6

/-- `index = BLOCK[3][5:0]` -/
def chunkIndex (b : Chunk) : BitVec 6 := b[3].extractLsb' 0 6

/-- The 12 payload bytes, BLOCK[4..15] (R48). -/
def chunkPayload (b : Chunk) : List Byte := b.toList.drop 4

end Sys2Proof.Machine
end

