-- ==== Sys2Proof/Safety.lean ====
section
/-!
DEFINITION. What a good state, a good input and a disciplined command are, in the terms the statements use.
-/

namespace Sys2Proof.Machine

/-- ERRCODE holds one of the four codes and "No other value is ever held" (10_state.md R25). -/
def State.errcodeLegal (s : State) : Bool := s.errcode.toNat ≤ 3

/-- An event the model admits: not a second master and not another size than one byte (60_exceptions.md R168;
20_memory.md R52). -/
def PortEvent.admitted : PortEvent → Bool
  | .access .host size _ => size == 1
  | .access .other _ _ => false
  | .reset => true
  | .resetDuring _ => true
  | .powerGate => true

/-- A command that keeps the key discipline: KEY_DERIVE on a fresh key, DECRYPT on a start key
(70_reset_and_hazards.md R185, R186). -/
def keyDisciplined (i : Instr) (s : State) : Bool :=
  match i with
  | .keyDerive => s.keyState == .raw
  | .decrypt => s.keyState == .start
  | .nop | .rev | .cond | .pduCheck | .condBlock | .validate | .crcInit | .crcByte => true

/-- A step that neither faults nor is refused. -/
def Safe (s : State) : Prop := ∃ t, step s = .next t

end Sys2Proof.Machine
end

