-- ==== Sys2Proof/WellFormed.lean ====
section
/-!
DEFINITION. Which command bytes and which commands are well formed (30_encoding.md R71 to R79).
-/

namespace Sys2Proof

/-- Bits 7:4 of a command byte are the reserved field, which must be 0 (30_encoding.md R71). -/
def reservedBitsClear (v : Byte) : Bool := v &&& 0xF0 == 0

/-- Bits 3:0 are an opcode of the map, 0x0 to 0x9 (R73). -/
def opcodeDefined (v : Byte) : Bool := (v &&& 0x0F).toNat < 10

/-- A command byte that names a command: everything else is illegal (R76, R77, R84). -/
def commandByteOk (v : Byte) : Bool := reservedBitsClear v && opcodeDefined v

/-- No command has an operand, a field or a length to check (R74, R75, R79): each is well formed as it stands. -/
def Instr.wellFormed : Instr → Bool
  | .nop | .rev | .cond | .pduCheck | .condBlock => true
  | .keyDerive | .decrypt | .validate | .crcInit | .crcByte => true

end Sys2Proof
end

