-- ==== Sys2Proof/Certificates/Slice0/Obligations.lean ====
section
/-!
DEFINITION. The statements for the provers. "log <n>" is notes/assumptions/<n>.md.
-/

open Sys2Proof Sys2Proof.Machine

/-! ### Words the statements share -/

namespace Sys2Proof.Claims

/-- The host's next transaction is a one-byte access, no power gate awaits a reset, and `rest` comes after it. -/
def HostNext (s : State) (op : BusOp) (rest : List PortEvent) : Prop :=
  s.pending = .access .host 1 op :: rest ∧ s.needsReset = false

/-- The bytes a command may change in the window, by 10_state.md R43; STATUS is told bit by bit where it is used. -/
def writesOffset (i : Instr) (offset : Byte) : Bool :=
  let n := offset.toNat
  let own : Bool := match i with
    | .nop => false
    | .rev | .cond | .pduCheck => n == 0x06
    | .condBlock => decide (0x30 ≤ n ∧ n ≤ 0x3F)
    | .keyDerive => decide (0x20 ≤ n ∧ n ≤ 0x2F)
    | .decrypt => decide (0x20 ≤ n ∧ n ≤ 0x3F)
    | .validate => decide (0x33 ≤ n ∧ n ≤ 0x3F) || decide (0x08 ≤ n ∧ n ≤ 0x0A) || decide (0x0C ≤ n ∧ n ≤ 0x0E)
    | .crcInit | .crcByte => decide (0x10 ≤ n ∧ n ≤ 0x12)
  own || n == 0x01 || n == 0x02

/-- The reserved offsets as 10_state.md R37 lists them. -/
def reservedOffset (offset : Byte) : Bool :=
  let n := offset.toNat
  n == 0x0B || n == 0x0F || decide (0x13 ≤ n ∧ n ≤ 0x1F) || decide (0x51 ≤ n ∧ n ≤ 0x5F)
    || decide (0x71 ≤ n ∧ n ≤ 0x7F) || decide (0x91 ≤ n)

/-- The offsets of read-only registers (10_state.md R22; 20_memory.md R59). -/
def readOnlyOffset (offset : Byte) : Bool :=
  let n := offset.toNat
  n == 0x01 || n == 0x02 || n == 0x06 || decide (0x08 ≤ n ∧ n ≤ 0x0A) || decide (0x0C ≤ n ∧ n ≤ 0x0E)
    || decide (0x10 ≤ n ∧ n ≤ 0x12)

/-- The offsets that keep all eight bits written to them: DIN, PDU_TYPE, KEY, BLOCK and MASK (10_state.md R22). -/
def fullByteOffset (offset : Byte) : Bool :=
  let n := offset.toNat
  n == 0x05 || n == 0x07 || decide (0x20 ≤ n ∧ n ≤ 0x50) || decide (0x60 ≤ n ∧ n ≤ 0x70) || decide (0x80 ≤ n ∧ n ≤ 0x90)

/-- Two states agree on all architectural state but the hidden KEY_STATE (10_state.md R46). -/
def SameVisible (s t : State) : Prop :=
  s.channel = t.channel ∧ s.pos = t.pos ∧ s.din = t.din ∧ s.dout = t.dout ∧ s.pduType = t.pduType ∧
  s.errcode = t.errcode ∧ s.valid = t.valid ∧ s.pduMatch = t.pduMatch ∧ s.crcEmb = t.crcEmb ∧
  s.crcCalc = t.crcCalc ∧ s.crcAcc = t.crcAcc ∧ s.key = t.key ∧ s.block = t.block ∧ s.mask = t.mask

/-- After command byte `v` issued in `s`, KEY is a drawn value (41_aes.md R118, R119). -/
def drawsKey (v : Byte) (s : State) : Bool := v == 0x06 || (v == 0x05 && s.keyState != .raw)

/-- After command byte `v` issued in `s`, BLOCK is a drawn value (41_aes.md R119). -/
def drawsBlock (v : Byte) (s : State) : Bool := v == 0x06 && s.keyState != .start

/-- `t` and `u`, each after command byte `v`, agree on all but what `v` draws from `s`, and the model's own draw counter. -/
def SameButDraws (v : Byte) (s t u : State) : Prop :=
  u = { t with key := u.key, block := u.block, draws := u.draws } ∧
  (drawsKey v s = false → u.key = t.key) ∧ (drawsBlock v s = false → u.block = t.block)

/-- The error that command byte `v` meets in a state, by 60_exceptions.md R151 and the order of R160; 0x00 if none. -/
def errorCode (v : Byte) (s : State) : Byte :=
  if v.extractLsb' 4 4 ≠ 0 ∨ 0xA ≤ (v.extractLsb' 0 4).toNat then 0x01
  else if (v = 0x02 ∨ v = 0x03 ∨ v = 0x04) ∧ s.channel = 3 then 0x02
  else if v = 0x02 ∧ 16 < s.pos.toNat then 0x03
  else 0x00

/-- The host feeds bytes to the generator: DIN, then CRC_BYTE, for each (42_crc.md R139). -/
def feed : List Byte → State → Host.Outcome State Fault Refusal
  | [], s => .next s
  | b :: rest, s =>
    match exec .crcByte { s with din := b } with
    | .next t => feed rest t
    | .fault r => .fault r
    | .refused r => .refused r

end Sys2Proof.Claims

open Sys2Proof.Claims

/-! ### Reset and the register window -/

/-- 70_reset_and_hazards.md R181, row by row. -/
def Obligations.ResetValuesAreTheTable : Prop :=
  State.reset.valid = false ∧ State.reset.pduMatch = false ∧ State.reset.err = false ∧
  readWindow State.reset 0x01 = 0x00 ∧ State.reset.errcode = 0x00 ∧ State.reset.channel = 0 ∧ State.reset.pos = 0 ∧
  State.reset.din = 0x00 ∧ State.reset.dout = 0x00 ∧ State.reset.pduType = 0x00 ∧ State.reset.crcEmb = 0x000000 ∧
  State.reset.crcCalc = 0x000000 ∧ State.reset.crcAcc = 0xB704CE ∧ (∀ i : Fin 16, State.reset.key[i] = 0x00) ∧
  State.reset.keyState = .raw ∧ (∀ i : Fin 16, State.reset.block[i] = 0x00) ∧
  (∀ (c : Fin 3) (p : Fin 17), (State.reset.mask[c])[p] = 0x00) ∧ readWindow State.reset 0x00 = 0x00 ∧
  ∀ off, reservedOffset off = true → readWindow State.reset off = 0x00

/-- A reset event sets every piece of architectural state to its reset value in one step
(70_reset_and_hazards.md section 1, "sets every piece of state to its reset value"). That the same state follows when
reset cuts a transaction, which gets no result, is the model's reading (DEDUCED, log 6); that the model's own fields
stay is its choice (log 1, 2). -/
def Obligations.ResetEventRestoresResetValues : Prop :=
  ∀ (s : State) (e : PortEvent) (rest : List PortEvent), s.pending = e :: rest →
    (e = .reset ∨ ∃ op, e = .resetDuring op) →
    step s = .next { State.reset with draws := s.draws, pending := rest, replies := s.replies }

/-- The register map (10_state.md section 2): what stands at each offset, that no register has two, and which field of the
state each offset reads (10_state.md sections 3 and 4; STATUS and the 24-bit registers have statements of their own). The
list of ranges is the table's; the names are the model's. -/
def Obligations.OffsetsAreTheRegisterMap : Prop :=
  regAt 0x00 = .cmd ∧ regAt 0x01 = .status ∧ regAt 0x02 = .errcode ∧ regAt 0x03 = .channel ∧ regAt 0x04 = .pos ∧
  regAt 0x05 = .din ∧ regAt 0x06 = .dout ∧ regAt 0x07 = .pduType ∧
  (∀ i : Fin 3, regAt (BitVec.ofNat 8 (0x08 + i)) = .crcEmb i ∧ regAt (BitVec.ofNat 8 (0x0C + i)) = .crcCalc i ∧
    regAt (BitVec.ofNat 8 (0x10 + i)) = .crcAcc i) ∧
  (∀ i : Fin 16, regAt (BitVec.ofNat 8 (0x20 + i)) = .key i ∧ regAt (BitVec.ofNat 8 (0x30 + i)) = .block i) ∧
  (∀ (c : Fin 3) (p : Fin 17), regAt (BitVec.ofNat 8 (0x40 + 0x20 * c + p)) = .mask c p) ∧
  (∀ off, regAt off = .reserved ↔ reservedOffset off = true) ∧
  (∀ (r : Reg) (off : Byte), r ≠ .reserved → (regAt off = r ↔ r.offset = some off)) ∧
  ∀ s : State,
    readWindow s 0x00 = 0x00 ∧ readWindow s 0x02 = s.errcode ∧ readWindow s 0x03 = s.channel.setWidth 8 ∧
    readWindow s 0x04 = s.pos.setWidth 8 ∧ readWindow s 0x05 = s.din ∧ readWindow s 0x06 = s.dout ∧
    readWindow s 0x07 = s.pduType ∧
    (∀ i : Fin 16, readWindow s (BitVec.ofNat 8 (0x20 + i)) = s.key[i] ∧
      readWindow s (BitVec.ofNat 8 (0x30 + i)) = s.block[i]) ∧
    ∀ (c : Fin 3) (p : Fin 17), readWindow s (BitVec.ofNat 8 (0x40 + 0x20 * c + p)) = (s.mask[c])[p]

/-- 20_memory.md R57: a read changes nothing but what the host has read, two reads of an offset give one byte, a write
to CMD runs a command, and any other write changes no other offset, and KEY_STATE only when it is to KEY. -/
def Obligations.ReadsAndWritesActOnTheirOwnByte : Prop :=
  ∀ (s : State) (off : Byte) (rest : List PortEvent),
    (HostNext s (.read off) rest →
      step s = .next { s with pending := rest, replies := s.replies ++ [readWindow s off] }) ∧
    (∀ rest', HostNext s (.read off) rest → rest = .access .host 1 (.read off) :: rest' →
      ∃ t, step s = .next t ∧
        step t = .next { s with pending := rest', replies := s.replies ++ [readWindow s off, readWindow s off] }) ∧
    (∀ v, HostNext s (.write off v) rest → off = 0x00 → step s = issueCommand v { s with pending := rest }) ∧
    (∀ v, HostNext s (.write off v) rest → off ≠ 0x00 →
      ∃ t, step s = .next t ∧ (∀ off', off' ≠ off → readWindow t off' = readWindow s off') ∧
        t.keyState = (if 0x20 ≤ off.toNat ∧ off.toNat ≤ 0x2F then .raw else s.keyState) ∧
        t.pending = rest ∧ t.replies = s.replies ∧ t.draws = s.draws ∧ t.needsReset = false)

/-- What a host write leaves at a writable offset (10_state.md sections 3 and 4: "CHANNEL <- v[1:0]", "POS <- v[4:0]",
and all eight bits elsewhere): what the offset then reads, and the one field of the state that has changed, with KEY_STATE
where it is KEY's. -/
def Obligations.WritableRegistersHoldWhatIsWritten : Prop :=
  (∀ (s : State) (off v : Byte) (rest : List PortEvent), HostNext s (.write off v) rest →
    (fullByteOffset off = true → ∃ t, step s = .next t ∧ readWindow t off = v) ∧
    (off = 0x03 → ∃ t, step s = .next t ∧ readWindow t off = v &&& 0x03) ∧
    (off = 0x04 → ∃ t, step s = .next t ∧ readWindow t off = v &&& 0x1F)) ∧
  ∀ (s : State) (v : Byte) (rest : List PortEvent),
    (HostNext s (.write 0x03 v) rest → step s = .next { s with pending := rest, channel := v.extractLsb' 0 2 }) ∧
    (HostNext s (.write 0x04 v) rest → step s = .next { s with pending := rest, pos := v.extractLsb' 0 5 }) ∧
    (HostNext s (.write 0x05 v) rest → step s = .next { s with pending := rest, din := v }) ∧
    (HostNext s (.write 0x07 v) rest → step s = .next { s with pending := rest, pduType := v }) ∧
    (∀ i : Fin 16, HostNext s (.write (BitVec.ofNat 8 (0x20 + i)) v) rest →
      step s = .next { s with pending := rest, key := s.key.set i v, keyState := .raw }) ∧
    (∀ i : Fin 16, HostNext s (.write (BitVec.ofNat 8 (0x30 + i)) v) rest →
      step s = .next { s with pending := rest, block := s.block.set i v }) ∧
    ∀ (c : Fin 3) (p : Fin 17), HostNext s (.write (BitVec.ofNat 8 (0x40 + 0x20 * c + p)) v) rest →
      step s = .next { s with pending := rest, mask := s.mask.set c ((s.mask[c]).set p v) }

/-- 10_state.md R37: reserved offsets and bits read as 0, and writing them changes nothing. -/
def Obligations.ReservedOffsetsAndBitsReadZero : Prop :=
  (∀ (s : State) (off : Byte), reservedOffset off = true → readWindow s off = 0x00) ∧
  (∀ s : State, readWindow s 0x03 &&& 0xFC = 0 ∧ readWindow s 0x04 &&& 0xE0 = 0 ∧ readWindow s 0x01 &&& 0xF8 = 0) ∧
  (∀ (s : State) (off v : Byte) (rest : List PortEvent), HostNext s (.write off v) rest →
    (reservedOffset off = true ∨ off = 0x01) → step s = .next { s with pending := rest }) ∧
  ∀ (s : State) (v : Byte), writeWindow s 0x03 v = writeWindow s 0x03 (v &&& 0x03) ∧
    writeWindow s 0x04 v = writeWindow s 0x04 (v &&& 0x1F)

/-- 60_exceptions.md R171: no host transaction raises an error, a write to a reserved or read-only offset is ignored,
and ERRCODE changes only by a write to CMD (or, as reset sets every register, by reset). Of a power gate, whose effect on
registers is the platform's (60_exceptions.md R170), nothing is said. -/
def Obligations.OnlyCommandsProduceErrcode : Prop :=
  (∀ (s : State) (op : BusOp) (rest : List PortEvent), HostNext s op rest → (∀ v, op ≠ .write 0x00 v) →
    ∃ t, step s = .next t ∧ t.errcode = s.errcode) ∧
  (∀ (s : State) (off v : Byte) (rest : List PortEvent), HostNext s (.write off v) rest →
    (reservedOffset off = true ∨ readOnlyOffset off = true) → step s = .next { s with pending := rest }) ∧
  ∀ s t : State, step s = .next t → t.errcode ≠ s.errcode →
    ∃ rest, (∃ v, s.pending = .access .host 1 (.write 0x00 v) :: rest) ∨ s.pending = .reset :: rest ∨
      (∃ op, s.pending = .resetDuring op :: rest) ∨ s.pending = .powerGate :: rest

/-- 10_state.md R42, with the other bits of STATUS beside it. -/
def Obligations.StatusErrIsAViewOfErrcode : Prop :=
  (∀ s : State, (readWindow s 0x01).getLsbD 2 = (readWindow s 0x02 != 0x00) ∧
    (readWindow s 0x01).getLsbD 0 = s.valid ∧ (readWindow s 0x01).getLsbD 1 = s.pduMatch ∧
    ∀ k, 3 ≤ k → (readWindow s 0x01).getLsbD k = false) ∧
  (readWindow State.reset 0x01).getLsbD 2 = false

/-- 20_memory.md R53: the lowest offset of a 24-bit register holds bits 23:16. -/
def Obligations.CrcRegistersReadBigEndian : Prop :=
  ∀ s : State,
    (readWindow s 0x08 ++ readWindow s 0x09 ++ readWindow s 0x0A : BitVec 24) = s.crcEmb ∧
    (readWindow s 0x0C ++ readWindow s 0x0D ++ readWindow s 0x0E : BitVec 24) = s.crcCalc ∧
    (readWindow s 0x10 ++ readWindow s 0x11 ++ readWindow s 0x12 : BitVec 24) = s.crcAcc

/-- Everything but KEY_STATE is readable through the window, and KEY_STATE is not (60_exceptions.md section 3, "All
state except KEY_STATE is readable through the window"; 10_state.md section 5). -/
def Obligations.WindowShowsAllButKeyState : Prop :=
  ∀ s t : State, (∀ off, readWindow s off = readWindow t off) ↔ SameVisible s t

/-- Another size than one byte is refused (20_memory.md section 2, "a request of any other size is refused"), and so is a
second master (60_exceptions.md section 3, "A second master is not admitted (refused)"). Which refusal names a transaction
that meets several is the model's order (DEDUCED, log 12). -/
def Obligations.OtherSizesAndMastersAreRefused : Prop :=
  ∀ (s : State) (size : Nat) (op : BusOp) (rest : List PortEvent),
    (s.pending = .access .host size op :: rest → s.needsReset = false →
      (size ≠ 1 → step s = .refused (.accessSize size)) ∧
      (size = 1 → ∃ t, step s = .next t ∧ t.pending = rest)) ∧
    (s.pending = .access .other size op :: rest → step s = .refused .secondMaster)

/-- After a power gate the host's accesses are refused until a reset has come (60_exceptions.md section 3, "a reset …
must precede use"). How the model holds this is its choice (log 7). -/
def Obligations.PowerGateNeedsReset : Prop :=
  ∀ (s : State) (rest : List PortEvent),
    (s.pending = .powerGate :: rest → step s = .next { s with pending := rest, needsReset := true }) ∧
    (∀ size op, s.pending = .access .host size op :: rest → s.needsReset = true → step s = .refused .needsReset) ∧
    (s.pending = .reset :: rest → ∃ t, step s = .next t ∧ t.needsReset = false)

/-- With nothing at the port the block is idle: it keeps its state (70_reset_and_hazards.md section 1, "idle after
reset until the host writes CMD"). That an idle block takes a step at all is the model's choice (log 2). -/
def Obligations.IdleBlockKeepsItsState : Prop := ∀ s : State, s.pending = [] → step s = .next s

/-- Every admitted event is performed in one step, whatever the state, but for an access before the reset that a power
gate asks for (70_reset_and_hazards.md section 4, "Every command completes in finite time"). That a reset which cuts a
transaction and a power gate are such events is the model's reading and choice (DEDUCED, log 6; DESIGN CHOICE, log 7). -/
def Obligations.AdmittedEventsArePerformed : Prop :=
  ∀ (s : State) (e : PortEvent) (rest : List PortEvent), s.pending = e :: rest → e.admitted = true →
    (s.needsReset = false ∨ ∀ m size op, e ≠ .access m size op) → ∃ t, step s = .next t ∧ t.pending = rest

/-! ### Commands and their bytes -/

/-- A few words of the encoding (30_encoding.md R73): the ten opcodes, and the reserved six. -/
def Obligations.CommandBytesAreTheOpcodeMap : Prop :=
  decode 0x00 = .ok .nop ∧ decode 0x01 = .ok .rev ∧ decode 0x02 = .ok .cond ∧ decode 0x03 = .ok .pduCheck ∧
  decode 0x04 = .ok .condBlock ∧ decode 0x05 = .ok .keyDerive ∧ decode 0x06 = .ok .decrypt ∧
  decode 0x07 = .ok .validate ∧ decode 0x08 = .ok .crcInit ∧ decode 0x09 = .ok .crcByte ∧
  ∀ v : Byte, 0x0A ≤ v.toNat → v.toNat ≤ 0x0F → decode v = .error (.reservedOpcode v)

/-- Decoding, encoding and the (mask, match) summary agree (30_encoding.md section 6, "v & mask(X) == match(X)"). -/
def Obligations.DecodeEncodeAndTableAgree : Prop :=
  ∀ (v : Byte) (i : Instr),
    (decode v = .ok i ↔ v = encode i) ∧ (decode v = .ok i ↔ ∃ r ∈ commandTable, r.command = i ∧ r.fits v = true) ∧
    ((∃ j, decode v = .ok j) ↔ commandByteOk v = true) ∧ decodeTableWord 8 (encode i).toNat = some i

/-- 30_encoding.md R72: a command byte runs the one command it names or raises IllegalCommand. -/
def Obligations.CommandByteRunsItsCommandOrIsIllegal : Prop :=
  ∀ (v : Byte) (s : State),
    (v.extractLsb' 4 4 ≠ 0 → issueCommand v s = .next { s with errcode := 0x01 }) ∧
    (v.extractLsb' 4 4 = 0 → 0xA ≤ (v.extractLsb' 0 4).toNat → issueCommand v s = .next { s with errcode := 0x01 }) ∧
    (v.extractLsb' 4 4 = 0 → (v.extractLsb' 0 4).toNat < 0xA →
      ∃ i, [Instr.nop, .rev, .cond, .pduCheck, .condBlock, .keyDerive, .decrypt, .validate, .crcInit, .crcByte][
        (v.extractLsb' 0 4).toNat]? = some i ∧ issueCommand v s = exec i s)

/-- A step runs the decoded command: when the host's next transaction writes to CMD a byte that decodes to `i`, the step
is `exec i` on the state from which that transaction has been taken (20_memory.md section 3, "In the model, a CMD write
is therefore one step that performs the command"). -/
def Obligations.StepRunsTheDecodedCommand : Prop :=
  ∀ (s : State) (v : Byte) (i : Instr) (rest : List PortEvent), HostNext s (.write 0x00 v) rest →
    decode v = .ok i → step s = exec i { s with pending := rest }

/-- 60_exceptions.md R154. -/
def Obligations.IllegalCommandBytesSetErrcode : Prop :=
  ∀ (s : State) (v : Byte) (rest : List PortEvent), HostNext s (.write 0x00 v) rest →
    (v.extractLsb' 4 4 ≠ 0 ∨ 0xA ≤ (v.extractLsb' 0 4).toNat) →
    step s = .next { s with pending := rest, errcode := 0x01 }

/-! ### Errors -/

/-- 60_exceptions.md R152, for every command byte: either ERRCODE is 0, or it is one of the three codes and nothing else
has changed. -/
def Obligations.ErrorsChangeOnlyErrcode : Prop :=
  ∀ (v : Byte) (s : State), ∃ t, issueCommand v s = .next t ∧
    (t.errcode = 0x00 ∨
      ((t.errcode = 0x01 ∨ t.errcode = 0x02 ∨ t.errcode = 0x03) ∧ t = { s with errcode := t.errcode }))

/-- 60_exceptions.md R153: every command writes ERRCODE, 0x00 where it meets no error condition and its error's code
otherwise; and it is not sticky: whatever code a command finds, it leaves the same code and the same state, but for values
drawn, which differ freely. -/
def Obligations.ErrcodeReportsTheLastCommandOnly : Prop :=
  ∀ (v x : Byte) (s : State), ∃ t u, issueCommand v s = .next t ∧ t.errcode = errorCode v s ∧
    issueCommand v { s with errcode := x } = .next u ∧ SameButDraws v s t u

/-- 60_exceptions.md R155. -/
def Obligations.BadChannelIsReported : Prop :=
  ∀ (s : State) (i : Instr), s.channel = 3 → (i = .cond ∨ i = .pduCheck ∨ i = .condBlock) →
    exec i s = .next { s with errcode := 0x02 }

/-- 60_exceptions.md R160: the reserved bits and the opcode before the channel, the channel before the position, and one
error at most. -/
def Obligations.ErrorPriority : Prop :=
  ∀ s : State, s.channel = 3 → 16 < s.pos.toNat →
    (∀ v : Byte, (v.extractLsb' 4 4 ≠ 0 ∨ 0xA ≤ (v.extractLsb' 0 4).toNat) →
      issueCommand v s = .next { s with errcode := 0x01 }) ∧
    exec .cond s = .next { s with errcode := 0x02 } ∧
    ∀ c : BitVec 2, c ≠ 3 → exec .cond { s with channel := c } = .next { s with channel := c, errcode := 0x03 }

/-- Commands that do not use CHANNEL or POS ignore it (30_encoding.md section 5, "Commands that do not read CHANNEL
ignore its value", "No other command reads POS"). That two runs of a command which draws give equal bytes is the model's
choice (DESIGN CHOICE, log 1: equal counters draw equal bytes). -/
def Obligations.UnusedOperandsAreIgnored : Prop :=
  ∀ (i : Instr) (s t : State), exec i s = .next t →
    (i ≠ .cond → ∀ p, exec i { s with pos := p } = .next { t with pos := p }) ∧
    (i ≠ .cond → i ≠ .pduCheck → i ≠ .condBlock → ∀ c, exec i { s with channel := c } = .next { t with channel := c })

/-! ### What each command does -/

/-- 43_control.md R145. -/
def Obligations.NopWritesOnlyErrcode : Prop :=
  decode 0x00 = .ok .nop ∧
  ∀ s : State, ∃ t, exec .nop s = .next t ∧ t = { s with errcode := 0x00 } ∧
    readWindow t 0x01 = readWindow s 0x01 &&& ~~~0x04

/-- 40_conditioning.md R87, with `rev8` told bit by bit (R85). -/
def Obligations.RevReversesDin : Prop :=
  decode 0x01 = .ok .rev ∧
  (∀ s : State, exec .rev s = .next { s with dout := rev8 s.din, errcode := 0x00 }) ∧
  ∀ (x : Byte) (k : Nat), k < 8 → (rev8 x).getLsbD (7 - k) = x.getLsbD k

/-- 40_conditioning.md R88 and 60_exceptions.md R156. -/
def Obligations.CondConditionsDin : Prop :=
  decode 0x02 = .ok .cond ∧
  ∀ s : State,
    (∀ (c : Fin 3) (p : Fin 17), s.channel.toNat = c → s.pos.toNat = p →
      exec .cond s = .next { s with dout := rev8 s.din ^^^ (s.mask[c])[p], errcode := 0x00 }) ∧
    (s.channel = 3 → exec .cond s = .next { s with errcode := 0x02 }) ∧
    (s.channel ≠ 3 → 16 < s.pos.toNat → exec .cond s = .next { s with errcode := 0x03 })

/-- 40_conditioning.md R89. -/
def Obligations.PduCheckComparesTheConditionedByte : Prop :=
  decode 0x03 = .ok .pduCheck ∧
  ∀ s : State,
    (∀ c : Fin 3, s.channel.toNat = c →
      exec .pduCheck s = .next { s with
        dout := rev8 s.din ^^^ (s.mask[c])[(0 : Fin 17)]
        pduMatch := decide (rev8 s.din ^^^ (s.mask[c])[(0 : Fin 17)] = s.pduType)
        errcode := 0x00 }) ∧
    (s.channel = 3 → exec .pduCheck s = .next { s with errcode := 0x02 })

/-- 40_conditioning.md R90. -/
def Obligations.CondBlockConditionsTheChunk : Prop :=
  decode 0x04 = .ok .condBlock ∧
  ∀ s : State,
    (∀ c : Fin 3, s.channel.toNat = c →
      ∃ t, exec .condBlock s = .next t ∧ t = { s with block := t.block, errcode := 0x00 } ∧
        ∀ i : Fin 16, t.block[i] = rev8 s.block[i] ^^^ (s.mask[c])[1 + i.val]) ∧
    (s.channel = 3 → exec .condBlock s = .next { s with errcode := 0x02 })

/-- 41_aes.md R118. From START or SPENT the new KEY is a drawn value, so nothing is said of it here. -/
def Obligations.KeyDeriveMakesTheStartKey : Prop :=
  decode 0x05 = .ok .keyDerive ∧
  ∀ s : State, ∃ t, exec .keyDerive s = .next t ∧
    t = { s with key := t.key, keyState := if s.keyState = .raw then .start else .spent, errcode := 0x00, draws := t.draws } ∧
    (s.keyState = .raw → t.key = deriveStart s.key)

/-- 41_aes.md R119. KEY afterwards, and BLOCK unless KEY held a start key, are drawn values, so nothing is said of them
here. -/
def Obligations.DecryptDecryptsInPlace : Prop :=
  decode 0x06 = .ok .decrypt ∧
  ∀ s : State, ∃ t, exec .decrypt s = .next t ∧
    t = { s with block := t.block, key := t.key, keyState := .spent, errcode := 0x00, draws := t.draws } ∧
    (s.keyState = .start → t.block = (invCipher s.block s.key).1)

/-- Where a draw goes (00_scope.md section 4, "draw(n) is an n-byte value chosen freely"). That draws are numbered by a
counter, and a misuse draws BLOCK before KEY, is the model's choice (log 1). -/
def Obligations.DrawnValuesAreFreeBytes : Prop :=
  ∀ s : State,
    (s.keyState ≠ .raw → ∃ t, exec .keyDerive s = .next t ∧ t.draws = s.draws + 16 ∧
      ∀ i : Fin 16, t.key[i] = Config.freeByte (s.draws + i)) ∧
    (s.keyState = .start → ∃ t, exec .decrypt s = .next t ∧ t.draws = s.draws + 16 ∧
      ∀ i : Fin 16, t.key[i] = Config.freeByte (s.draws + i)) ∧
    (s.keyState ≠ .start → ∃ t, exec .decrypt s = .next t ∧ t.draws = s.draws + 32 ∧
      ∀ i : Fin 16, t.block[i] = Config.freeByte (s.draws + i) ∧ t.key[i] = Config.freeByte (s.draws + 16 + i))

/-- No command but DECRYPT takes a free value while the host keeps the key discipline (70_reset_and_hazards.md section 3;
41_aes.md section 6). The counter is the model's (log 1). -/
def Obligations.DisciplineDrawsNothing : Prop :=
  ∀ (i : Instr) (s t : State), keyDisciplined i s = true → i ≠ .decrypt → exec i s = .next t → t.draws = s.draws

/-- 42_crc.md R133, the unmasked bytes and the embedded CRC written out. -/
def Obligations.ValidateUnmasksAndChecks : Prop :=
  decode 0x07 = .ok .validate ∧
  ∀ s : State, ∃ t, exec .validate s = .next t ∧
    t = { s with block := t.block, crcEmb := t.crcEmb, crcCalc := t.crcCalc, valid := t.valid, errcode := 0x00 } ∧
    t.crcEmb = (s.block[0].setWidth 24 <<< 16) ||| (s.block[1].setWidth 24 <<< 8) ||| s.block[2].setWidth 24 ∧
    (∀ i : Fin 16, i.val < 3 → t.block[i] = s.block[i]) ∧
    (∀ i : Fin 16, 3 ≤ i.val → t.block[i] = s.block[i] ^^^ (t.crcEmb >>> (i.val - 3)).setWidth 8) ∧
    t.crcCalc = crc24 [t.block[3], t.block[4], t.block[5], t.block[6], t.block[7], t.block[8], t.block[9], t.block[10],
      t.block[11], t.block[12], t.block[13], t.block[14], t.block[15]] ∧
    t.valid = decide (t.crcEmb = t.crcCalc)

/-- 42_crc.md R134. -/
def Obligations.CrcInitStartsAFreshCrc : Prop :=
  decode 0x08 = .ok .crcInit ∧ ∀ s : State, exec .crcInit s = .next { s with crcAcc := 0xB704CE, errcode := 0x00 }

/-- 42_crc.md R135. -/
def Obligations.CrcByteFeedsDin : Prop :=
  decode 0x09 = .ok .crcByte ∧
  ∀ s : State, exec .crcByte s = .next { s with crcAcc := crc24Step s.crcAcc s.din, errcode := 0x00 }

/-! ### Frames and whole-machine rules -/

/-- The write sets of 10_state.md section 7 ("A command writes exactly the state in its row and leaves all other state
unchanged"), byte by byte through the window, with the two flags and the hidden state beside. -/
def Obligations.CommandsKeepToTheirWriteSets : Prop :=
  ∀ (i : Instr) (s t : State), exec i s = .next t →
    (∀ off, writesOffset i off = false → readWindow t off = readWindow s off) ∧
    (i ≠ .validate → t.valid = s.valid) ∧ (i ≠ .pduCheck → t.pduMatch = s.pduMatch) ∧
    (i ≠ .keyDerive → i ≠ .decrypt → t.keyState = s.keyState ∧ t.draws = s.draws) ∧
    t.pending = s.pending ∧ t.replies = s.replies ∧ t.needsReset = s.needsReset

/-- 10_state.md R39, for one event at the port. -/
def Obligations.KeyStateFollowsItsTable : Prop :=
  ∀ (s t : State) (rest : List PortEvent), step s = .next t →
    (s.pending = .reset :: rest → t.keyState = .raw) ∧
    (∀ off, HostNext s (.read off) rest → t.keyState = s.keyState) ∧
    (∀ off v, HostNext s (.write off v) rest →
      (0x20 ≤ off.toNat → off.toNat ≤ 0x2F → t.keyState = .raw) ∧
      (off = 0x00 → v = 0x05 → t.keyState = if s.keyState = .raw then .start else .spent) ∧
      (off = 0x00 → v = 0x06 → t.keyState = .spent) ∧
      (off = 0x00 → v ≠ 0x05 → v ≠ 0x06 → t.keyState = s.keyState) ∧
      (off ≠ 0x00 → ¬(0x20 ≤ off.toNat ∧ off.toNat ≤ 0x2F) → t.keyState = s.keyState))

/-- 10_state.md R40 and R41: a flag changes only by its own command (or by reset), which gives it the value the rule
says; through errors and all other transactions it is kept. Of a power gate nothing is said (60_exceptions.md R170). -/
def Obligations.FlagsChangeOnlyByTheirCommand : Prop :=
  State.reset.valid = false ∧ State.reset.pduMatch = false ∧
  (∀ s : State, ∃ t, exec .validate s = .next t ∧ t.valid = decide (t.crcEmb = t.crcCalc)) ∧
  (∀ s t : State, exec .pduCheck s = .next t → t.errcode = 0x00 → t.pduMatch = decide (t.dout = t.pduType)) ∧
  ∀ (s t : State) (e : PortEvent) (rest : List PortEvent), s.pending = e :: rest → step s = .next t →
    e ≠ .reset → (∀ op, e ≠ .resetDuring op) → e ≠ .powerGate →
    (e ≠ .access .host 1 (.write 0x00 0x07) → t.valid = s.valid) ∧
    (e ≠ .access .host 1 (.write 0x00 0x03) ∨ t.errcode ≠ 0x00 → t.pduMatch = s.pduMatch)

/-- The operand registers change only by a host write to their own offset, or by reset (10_state.md sections 3 and 4,
"No command writes it", "Only host writes change MASK"). Of a power gate nothing is said (60_exceptions.md R170). -/
def Obligations.OperandsChangeOnlyByTheHost : Prop :=
  ∀ (s t : State) (e : PortEvent) (rest : List PortEvent), s.pending = e :: rest → step s = .next t →
    e ≠ .reset → (∀ op, e ≠ .resetDuring op) → e ≠ .powerGate →
    ((∀ v, e ≠ .access .host 1 (.write 0x03 v)) → t.channel = s.channel) ∧
    ((∀ v, e ≠ .access .host 1 (.write 0x04 v)) → t.pos = s.pos) ∧
    ((∀ v, e ≠ .access .host 1 (.write 0x05 v)) → t.din = s.din) ∧
    ((∀ v, e ≠ .access .host 1 (.write 0x07 v)) → t.pduType = s.pduType) ∧
    ∀ (c : Fin 3) (p : Fin 17), (∀ v, e ≠ .access .host 1 (.write (BitVec.ofNat 8 (0x40 + 0x20 * c + p)) v)) →
      (t.mask[c])[p] = (s.mask[c])[p]

/-- The result registers change only by their commands, or by reset (10_state.md section 3, "no other command writes
it", "Only VALIDATE writes it", "CRC_INIT and CRC_BYTE write it, and nothing else does"). Of a power gate nothing is said
(60_exceptions.md R170). -/
def Obligations.ResultsChangeOnlyByTheirCommands : Prop :=
  ∀ (s t : State) (e : PortEvent) (rest : List PortEvent), s.pending = e :: rest → step s = .next t →
    e ≠ .reset → (∀ op, e ≠ .resetDuring op) → e ≠ .powerGate →
    ((∀ v, v ∈ [0x01, 0x02, 0x03] → e ≠ .access .host 1 (.write 0x00 v)) → t.dout = s.dout) ∧
    (e ≠ .access .host 1 (.write 0x00 0x07) → t.crcEmb = s.crcEmb ∧ t.crcCalc = s.crcCalc) ∧
    ((∀ v, v ∈ [0x08, 0x09] → e ≠ .access .host 1 (.write 0x00 v)) → t.crcAcc = s.crcAcc)

/-- The invariant that ERRCODE holds one of the four codes, kept by every step (10_state.md section 3, "No other value
is ever held"). At a power gate it rests on the model's choice to keep the fields (DESIGN CHOICE, log 7). -/
def Obligations.StepKeepsErrcodeLegal : Prop :=
  ∀ s t : State, s.errcodeLegal = true → step s = .next t → t.errcodeLegal = true

/-- The invariant holds at reset. -/
def Obligations.ResetErrcodeIsLegal : Prop := State.reset.errcodeLegal = true

/-! ### The conditioner -/

/-- Conditioning twice does not restore the byte (40_conditioning.md section 3; 90_conflicts.md C1). The law is the
spec's inference. -/
def Obligations.ConditioningTwiceIsNoInverse : Prop :=
  ∀ (s : State) (c : Fin 3) (p : Fin 17), s.channel.toNat = c → s.pos.toNat = p →
    ∃ t u, exec .cond s = .next t ∧ exec .cond { t with din := t.dout } = .next u ∧
      u.dout = s.din ^^^ rev8 (s.mask[c])[p] ^^^ (s.mask[c])[p] ∧ (u.dout = s.din ↔ rev8 (s.mask[c])[p] = (s.mask[c])[p])

/-- COND_BLOCK restores a chunk that the transmitter reversed and whitened with the channel's table
(40_conditioning.md section 3, "the inverse of cond", and the transmit-side relation). The law is the spec's inference. -/
def Obligations.CondBlockUndoesTheTransmitter : Prop :=
  ∀ (s : State) (c : Fin 3) (b : Chunk), s.channel.toNat = c → s.block = unconditionChunk b s.mask[c] →
    exec .condBlock s = .next { s with block := b, errcode := 0x00 }

/-! ### AES -/

/-- 41_aes.md R105, with the S-box's check values and the other direction. -/
def Obligations.InverseSBoxInverts : Prop :=
  (∀ y : Byte, invSubByte y = ginv (rotl8 y 1 ^^^ rotl8 y 3 ^^^ rotl8 y 6 ^^^ 0x05)) ∧
  (∀ x : Byte, invSubByte (subByte x) = x) ∧ (∀ y : Byte, subByte (invSubByte y) = y) ∧
  invSubByte 0x63 = 0x00 ∧ invSubByte 0x00 = 0x52 ∧ subByte 0x00 = 0x63 ∧ subByte 0x01 = 0x7C ∧ subByte 0x53 = 0xED

/-- Field inversion (41_aes.md section 1, "ginv(0) = 0, and gmul(x, ginv(x)) = 1 for x != 0"). -/
def Obligations.FieldInverseInverts : Prop := ginv 0 = 0 ∧ ∀ x : Byte, x ≠ 0 → gmul x (ginv x) = 1

/-- Multiplication and division by x are inverse, and the round constants are chains of them (41_aes.md sections 1 and 4;
the spec's inferences). -/
def Obligations.RoundConstantsAreChains : Prop :=
  (∀ a : Byte, half (xtime a) = a ∧ xtime (half a) = a) ∧ rconBack = rconFwd.reverse ∧ rconFwd.head? = some 0x01 ∧
  rconFwd.tail = rconFwd.dropLast.map xtime ∧ rconBack.tail = rconBack.dropLast.map half

/-- 41_aes.md R112, R113 and R115, byte by byte. -/
def Obligations.RoundStepsByByte : Prop :=
  ∀ (st k : Chunk) (r c : Fin 4),
    (invShiftRows st)[r.val + 4 * c.val] = st[r.val + 4 * ((c.val + 4 - r.val) % 4)] ∧
    (invSubBytes st)[r.val + 4 * c.val] = invSubByte st[r.val + 4 * c.val] ∧
    (addRoundKey st k)[r.val + 4 * c.val] = st[r.val + 4 * c.val] ^^^ k[r.val + 4 * c.val]

/-- 41_aes.md R114, byte by byte. -/
def Obligations.InvMixColumnsByByte : Prop :=
  ∀ (st : Chunk) (c : Fin 4),
    let a0 := st[4 * c.val]
    let a1 := st[4 * c.val + 1]
    let a2 := st[4 * c.val + 2]
    let a3 := st[4 * c.val + 3]
    (invMixColumns st)[4 * c.val] = gmul a0 0x0E ^^^ gmul a1 0x0B ^^^ gmul a2 0x0D ^^^ gmul a3 0x09 ∧
    (invMixColumns st)[4 * c.val + 1] = gmul a0 0x09 ^^^ gmul a1 0x0E ^^^ gmul a2 0x0B ^^^ gmul a3 0x0D ∧
    (invMixColumns st)[4 * c.val + 2] = gmul a0 0x0D ^^^ gmul a1 0x09 ^^^ gmul a2 0x0E ^^^ gmul a3 0x0B ∧
    (invMixColumns st)[4 * c.val + 3] = gmul a0 0x0B ^^^ gmul a1 0x0D ^^^ gmul a2 0x09 ^^^ gmul a3 0x0E

/-- 41_aes.md R109: the word form and the byte form of the schedule step. -/
def Obligations.ExpandStepByWordAndByte : Prop :=
  ∀ (k : Chunk) (rc : Byte),
    let k' := expandStep k rc
    keyWord k' 0 = keyWord k 0 ^^^ (subWord (rotWord (keyWord k 3)) ^^^ (rc ++ (0 : BitVec 24))) ∧
    keyWord k' 1 = keyWord k 1 ^^^ keyWord k' 0 ∧ keyWord k' 2 = keyWord k 2 ^^^ keyWord k' 1 ∧
    keyWord k' 3 = keyWord k 3 ^^^ keyWord k' 2 ∧
    k'[0] = k[0] ^^^ subByte k[13] ^^^ rc ∧ k'[1] = k[1] ^^^ subByte k[14] ∧ k'[2] = k[2] ^^^ subByte k[15] ∧
    k'[3] = k[3] ^^^ subByte k[12] ∧ ∀ i : Fin 12, k'[i.val + 4] = k[i.val + 4] ^^^ k'[i.val]

/-- A backward schedule step undoes a forward one (41_aes.md section 4, "ExpandBack(ExpandStep(K, rc), rc) = K"; the
spec's inference). -/
def Obligations.ExpandBackUndoesExpandStep : Prop :=
  ∀ (k : Chunk) (rc : Byte), expandBack (expandStep k rc) rc = k ∧ expandStep (expandBack k rc) rc = k

/-- After `j` backward steps from the start key the key is round key 10 - j, and the inverse cipher ends on the original
key (41_aes.md section 5, the rule on round keys regenerated; the spec's inference). -/
def Obligations.RoundKeysAreRegenerated : Prop :=
  (∀ (k : Chunk) (j : Nat), j ≤ 10 →
    (rconBack.take j).foldl expandBack (deriveStart k) = (rconFwd.take (10 - j)).foldl expandStep k) ∧
  ∀ ciphertext k : Chunk, (invCipher ciphertext (deriveStart k)).2 = k

/-- The requirement on the decryptor (41_aes.md section 5, the correctness requirement): KEY_DERIVE and DECRYPT invert the
standard forward cipher for every key and every plaintext. The forward cipher's text is not in the rules (PRESUMED,
log 10). -/
def Obligations.DecryptionInvertsEncryption : Prop :=
  (∀ plaintext key : Chunk, (invCipher (aesEncrypt plaintext key) (deriveStart key)).1 = plaintext) ∧
  ∀ (s : State) (plaintext : Chunk), s.keyState = .raw → s.block = aesEncrypt plaintext s.key →
    ∃ t u, exec .keyDerive s = .next t ∧ exec .decrypt t = .next u ∧ u.block = plaintext

/-! ### CRC-24 -/

/-- 42_crc.md R136, with the running values of the test vector. -/
def Obligations.CrcCheckValue : Prop :=
  crc24 [0x31, 0x32, 0x33, 0x34, 0x35, 0x36, 0x37, 0x38, 0x39] = 0x21CF02 ∧ crc24 [] = 0xB704CE ∧
  crc24 [0x31] = 0x2EBA48

/-- 42_crc.md R132. -/
def Obligations.UnmaskByByteAndTwice : Prop :=
  ∀ b : Chunk,
    (∀ i : Fin 16, i.val < 3 → (unmask b)[i] = b[i]) ∧
    (∀ i : Fin 16, 3 ≤ i.val → (unmask b)[i] = b[i] ^^^
      (((b[0].setWidth 24 <<< 16) ||| (b[1].setWidth 24 <<< 8) ||| b[2].setWidth 24 : BitVec 24) >>> (i.val - 3)).setWidth 8) ∧
    unmask (unmask b) = b

/-- Appending a CRC big-endian gives a zero CRC, for every byte string (42_crc.md section 3, the residue law; the spec's
inference). -/
def Obligations.AppendedCrcGivesZero : Prop :=
  ∀ m : List Byte,
    crc24 (m ++ [(crc24 m).extractLsb' 16 8, (crc24 m).extractLsb' 8 8, (crc24 m).extractLsb' 0 8]) = 0

/-- A chunk built from 13 logical bytes validates, and VALIDATE restores them (42_crc.md section 3, "VALIDATE on that
block restores L into BLOCK[3..15] and gives VALID = 1"; the spec's inference). -/
def Obligations.BuiltChunkValidates : Prop :=
  ∀ (s : State) (l : Vector Byte 13), s.block = buildChunk l →
    ∃ t, exec .validate s = .next t ∧ t.valid = true ∧ t.crcEmb = crc24 l.toList ∧ t.crcCalc = crc24 l.toList ∧
      ∀ i : Fin 13, t.block[i.val + 3] = l[i]

/-- The generator fed byte by byte, from CRC_INIT, holds the CRC-24 of the bytes (42_crc.md section 3, the whole-message
check), and touches nothing but DIN, CRC_ACC and ERRCODE. -/
def Obligations.GeneratorComputesCrc24 : Prop :=
  ∀ (bytes : List Byte) (s : State), ∃ t u, exec .crcInit s = .next t ∧ feed bytes t = .next u ∧
    u.crcAcc = crc24 bytes ∧ u = { s with din := u.din, crcAcc := u.crcAcc, errcode := 0x00 }

/-! ### The chunk pipeline -/

/-- The pipeline of the block: a chunk that the transmitter builds from 13 logical bytes, encrypts under the host's key
and puts on air under the channel's whitening goes through KEY_DERIVE, COND_BLOCK, DECRYPT and VALIDATE, in the order of
70_reset_and_hazards.md section 2, to VALID = 1 with those bytes in BLOCK. The transmitter's cipher is the model's
(PRESUMED, log 10). -/
def Obligations.TransmittedChunkComesOutValid : Prop :=
  ∀ (s : State) (c : Fin 3) (l : Vector Byte 13), s.channel.toNat = c → s.keyState = .raw →
    s.block = airChunk l s.key s.mask[c] →
    ∃ t1 t2 t3 t4, exec .keyDerive s = .next t1 ∧ exec .condBlock t1 = .next t2 ∧ exec .decrypt t2 = .next t3 ∧
      exec .validate t3 = .next t4 ∧ t4.valid = true ∧ t4.crcEmb = crc24 l.toList ∧
      (∀ i : Fin 13, t4.block[i.val + 3] = l[i]) ∧ t4.keyState = .spent ∧ t4.errcode = 0x00
end

