-- ==== Sys2Proof/Laws/Aes.lean ====
section
/-!
SUPPORT. The two layouts of 16 bytes (41_aes.md R106, R107), the sums of AddRoundKey, one round of each
cipher, and the linearity of `gmul`.
-/

namespace Sys2Proof.Machine

/-! ### Words of a round key -/

/-- The four bytes of a word, joined, are the word. -/
theorem wordByte_join (w : KeyWord) : (wordByte w 0 ++ wordByte w 1 ++ wordByte w 2 ++ wordByte w 3 : BitVec 32) = w := by
  apply BitVec.eq_of_getLsbD_eq
  intro i hi
  simp only [wordByte, BitVec.getLsbD_append, BitVec.getLsbD_extractLsb']
  interval_cases i <;> simp

/-- A byte of four joined bytes. -/
theorem wordByte_append (a0 a1 a2 a3 : Byte) :
    wordByte (a0 ++ a1 ++ a2 ++ a3) 0 = a0 ∧ wordByte (a0 ++ a1 ++ a2 ++ a3) 1 = a1 ∧
    wordByte (a0 ++ a1 ++ a2 ++ a3) 2 = a2 ∧ wordByte (a0 ++ a1 ++ a2 ++ a3) 3 = a3 := by
  refine ⟨?_, ?_, ?_, ?_⟩ <;>
    · apply BitVec.eq_of_getLsbD_eq
      intro i hi
      simp only [wordByte, BitVec.getLsbD_append, BitVec.getLsbD_extractLsb']
      interval_cases i <;> simp

@[simp] theorem wordByte_xor (v w : KeyWord) (r : Fin 4) : wordByte (v ^^^ w) r = wordByte v r ^^^ wordByte w r := by
  simp [wordByte, BitVec.extractLsb'_xor]

@[simp] theorem ofKeyWords_getElem (w : Fin 4 → KeyWord) (i : Nat) (h : i < 16) :
    (ofKeyWords w)[i] = wordByte (w ⟨i / 4, by omega⟩) ⟨i % 4, by omega⟩ := by
  simp [ofKeyWords]

/-- The words of a key made of words are those words. -/
@[simp] theorem keyWord_ofKeyWords (w : Fin 4 → KeyWord) (j : Fin 4) : keyWord (ofKeyWords w) j = w j := by
  fin_cases j <;> simp [keyWord, wordByte_join]

/-- Byte `r` of word `j` is key byte `4j + r`. -/
theorem wordByte_keyWord (k : Chunk) (j r : Fin 4) : wordByte (keyWord k j) r = k[4 * j.val + r.val] := by
  obtain ⟨h0, h1, h2, h3⟩ := wordByte_append k[4 * j.val] k[4 * j.val + 1] k[4 * j.val + 2] k[4 * j.val + 3]
  fin_cases r
  · exact h0
  · exact h1
  · exact h2
  · exact h3

/-- A key is the key of its words. -/
@[simp] theorem ofKeyWords_keyWord (k : Chunk) : ofKeyWords (keyWord k) = k := by
  apply Vector.ext
  intro i hi
  have e : 4 * (i / 4) + i % 4 = i := by omega
  simp [wordByte_keyWord, e]

/-- Two keys with the same words are the same. -/
theorem eq_of_keyWord_eq {k k' : Chunk} (h : ∀ j, keyWord k j = keyWord k' j) : k = k' := by
  rw [← ofKeyWords_keyWord k, ← ofKeyWords_keyWord k', funext h]

/-! ### Cells of the state -/

@[simp] theorem ofCells_getElem (f : Fin 4 → Fin 4 → Byte) (i : Nat) (h : i < 16) :
    (ofCells f)[i] = f ⟨i % 4, by omega⟩ ⟨i / 4, by omega⟩ := by
  simp [ofCells]

@[simp] theorem cell_ofCells (f : Fin 4 → Fin 4 → Byte) (r c : Fin 4) : cell (ofCells f) r c = f r c := by
  have hr := r.isLt
  have e1 : (r.val + 4 * c.val) % 4 = r.val := by omega
  have e2 : (r.val + 4 * c.val) / 4 = c.val := by omega
  simp [cell, e1, e2]

@[simp] theorem ofCells_cell (st : Chunk) : ofCells (cell st) = st := by
  apply Vector.ext
  intro i hi
  have e : i % 4 + 4 * (i / 4) = i := by omega
  simp [cell, e]

/-- Two states with the same cells are the same. -/
theorem eq_of_cell_eq {a b : Chunk} (h : ∀ r c, cell a r c = cell b r c) : a = b := by
  rw [← ofCells_cell a, ← ofCells_cell b, funext fun r => funext fun c => h r c]

@[simp] theorem addRoundKey_getElem (st k : Chunk) (i : Nat) (h : i < 16) : (addRoundKey st k)[i] = st[i] ^^^ k[i] := by
  simp [addRoundKey]

/-- Adding a round key twice is adding nothing. -/
@[simp] theorem addRoundKey_addRoundKey (st k : Chunk) : addRoundKey (addRoundKey st k) k = st := by
  apply Vector.ext
  intro i hi
  simp

/-! ### Rounds. Rewrite with these: the kernel runs out of time when it must unfold a round to compare two states. -/

theorem invRounds_last (rc : Byte) (st k : Chunk) :
    invRounds [rc] st k =
      (addRoundKey (invSubBytes (invShiftRows st)) (expandBack k rc), expandBack k rc) := rfl

theorem invRounds_more (rc rc' : Byte) (rest : List Byte) (st k : Chunk) :
    invRounds (rc :: rc' :: rest) st k =
      invRounds (rc' :: rest) (invMixColumns (addRoundKey (invSubBytes (invShiftRows st)) (expandBack k rc)))
        (expandBack k rc) := rfl

theorem fwdRounds_last (rc : Byte) (st k : Chunk) :
    fwdRounds [rc] st k = addRoundKey (shiftRows (subBytes st)) (expandStep k rc) := rfl

theorem fwdRounds_more (rc rc' : Byte) (rest : List Byte) (st k : Chunk) :
    fwdRounds (rc :: rc' :: rest) st k =
      fwdRounds (rc' :: rest) (addRoundKey (mixColumns (shiftRows (subBytes st))) (expandStep k rc))
        (expandStep k rc) := rfl

/-! ### The field -/

/-- `xtime` as R101 writes it. -/
theorem xtime_eq (a : Byte) :
    xtime a = ((a.setWidth 9 <<< 1) ^^^ (if a.getLsbD 7 then 0x11B else 0x000)).setWidth 8 := by
  revert a
  decide +kernel

theorem xtime_toNat (a : Byte) : (xtime a).toNat = timesX a.toNat := by
  revert a
  decide +kernel

/-- One round of the loop of R100, on bytes: the running sum and the running multiple of `a`. -/
def gmulStep (b : Byte) (ra : Byte × Byte) (k : Nat) : Byte × Byte :=
  (if b.getLsbD k then ra.1 ^^^ ra.2 else ra.1, xtime ra.2)

/-- The loop on naturals computes the loop of R100 from bit `k` on. -/
theorem mulLoop_eq_foldl (b : Byte) (n k : Nat) (a r : Byte) :
    BitVec.ofNat 8 (mulLoop n a.toNat (b.toNat / 2 ^ k) r.toNat) = ((List.range' k n).foldl (gmulStep b) (r, a)).1 := by
  induction n generalizing k a r with
  | zero => simp [mulLoop]
  | succ n ih =>
    have hk : b.toNat / 2 ^ k / 2 = b.toNat / 2 ^ (k + 1) := by rw [Nat.div_div_eq_div_mul, pow_succ]
    have hr : r.toNat ^^^ (b.toNat / 2 ^ k % 2 * a.toNat) = (if b.getLsbD k then r ^^^ a else r).toNat := by
      have hbit : b.getLsbD k = decide (b.toNat / 2 ^ k % 2 = 1) := by
        simp [BitVec.getLsbD, Nat.testBit_eq_decide_div_mod_eq]
      obtain h0 | h1 := Nat.mod_two_eq_zero_or_one (b.toNat / 2 ^ k)
      · simp [hbit, h0]
      · simp [hbit, h1]
    rw [mulLoop, hk, hr, ← xtime_toNat, ih, List.range'_succ, List.foldl_cons, gmulStep]

/-- `gmul` as R100 writes it. -/
theorem gmul_eq (a b : Byte) : gmul a b = ((List.range 8).foldl (gmulStep b) (0, a)).1 := by
  simpa [gmul, List.range_eq_range'] using mulLoop_eq_foldl b 8 0 a 0

/-- `xtime` is additive. -/
theorem xtime_xor (a b : Byte) : xtime (a ^^^ b) = xtime a ^^^ xtime b := by
  apply BitVec.eq_of_getLsbD_eq
  intro i hi
  cases ha : a[7] <;> cases hb : b[7] <;> simp [xtime_eq, ha, hb] <;> interval_cases i <;> simp

/-- One round of `gmul` is additive in the accumulator and the running multiple together. -/
theorem gmulStep_xor (c : Byte) (p q : Byte × Byte) (k : Nat) :
    gmulStep c (p.1 ^^^ q.1, p.2 ^^^ q.2) k =
      ((gmulStep c p k).1 ^^^ (gmulStep c q k).1, (gmulStep c p k).2 ^^^ (gmulStep c q k).2) := by
  cases h : c.getLsbD k
  · simp [gmulStep, h, xtime_xor]
  · simp only [gmulStep, h, xtime_xor, if_true, Prod.mk.injEq, and_true]
    ac_rfl

/-- The whole loop of `gmul` is additive in the same way. -/
theorem foldl_gmulStep_xor (c : Byte) (ks : List Nat) (p q : Byte × Byte) :
    ks.foldl (gmulStep c) (p.1 ^^^ q.1, p.2 ^^^ q.2) =
      ((ks.foldl (gmulStep c) p).1 ^^^ (ks.foldl (gmulStep c) q).1,
        (ks.foldl (gmulStep c) p).2 ^^^ (ks.foldl (gmulStep c) q).2) := by
  induction ks generalizing p q with
  | nil => rfl
  | cons k ks ih =>
    simp only [List.foldl_cons, gmulStep_xor]
    exact ih (gmulStep c p k) (gmulStep c q k)

/-- Multiplication by a constant is additive (41_aes.md R100). -/
theorem gmul_xor (a b c : Byte) : gmul (a ^^^ b) c = gmul a c ^^^ gmul b c := by
  simpa [gmul_eq] using congrArg Prod.fst (foldl_gmulStep_xor c (List.range 8) (0, a) (0, b))

end Sys2Proof.Machine
end

