-- ==== Sys2Proof/Laws/Chunk.lean ====
section
/-!
SUPPORT. What the operations on a chunk do, byte by byte, and how `crc24` runs over joined strings. The operations are
irreducible: cite these and do not unfold them.
-/

namespace Sys2Proof.Machine

@[simp] theorem conditionChunk_getElem (b : Chunk) (table : MaskTable) (i : Nat) (h : i < 16) :
    (conditionChunk b table)[i] = conditionByte b[i] table[1 + i] := by
  simp [conditionChunk]

@[simp] theorem unconditionChunk_getElem (b : Chunk) (table : MaskTable) (i : Nat) (h : i < 16) :
    (unconditionChunk b table)[i] = unconditionByte b[i] table[1 + i] := by
  simp [unconditionChunk]

theorem unmask_getElem (b : Chunk) (i : Nat) (h : i < 16) :
    (unmask b)[i] = if i < 3 then b[i] else b[i] ^^^ unmaskByte (embeddedCrc b) i := by
  simp [unmask]

/-- Unmasking leaves the embedded CRC, which is in bytes 0 to 2. -/
@[simp] theorem embeddedCrc_unmask (b : Chunk) : embeddedCrc (unmask b) = embeddedCrc b := by
  simp [embeddedCrc, unmask_getElem]

@[simp] theorem crc24_nil : crc24 [] = crcInitial := by simp [crc24]

theorem crc24_append (m n : List Byte) : crc24 (m ++ n) = n.foldl crc24Step (crc24 m) := by simp [crc24]

end Sys2Proof.Machine
end

