-- ==== Sys2Proof/Laws/State.lean ====
section
/-!
SUPPORT. What each setter does to each field, so that no proof unfolds a record update.
-/

namespace Sys2Proof.Machine

variable (s : State)

@[simp] theorem State.setChannel_channel (v : BitVec 2) : (s.setChannel v).channel = v := rfl
@[simp] theorem State.setChannel_pos (v : BitVec 2) : (s.setChannel v).pos = s.pos := rfl
@[simp] theorem State.setChannel_din (v : BitVec 2) : (s.setChannel v).din = s.din := rfl
@[simp] theorem State.setChannel_dout (v : BitVec 2) : (s.setChannel v).dout = s.dout := rfl
@[simp] theorem State.setChannel_pduType (v : BitVec 2) : (s.setChannel v).pduType = s.pduType := rfl
@[simp] theorem State.setChannel_errcode (v : BitVec 2) : (s.setChannel v).errcode = s.errcode := rfl
@[simp] theorem State.setChannel_valid (v : BitVec 2) : (s.setChannel v).valid = s.valid := rfl
@[simp] theorem State.setChannel_pduMatch (v : BitVec 2) : (s.setChannel v).pduMatch = s.pduMatch := rfl
@[simp] theorem State.setChannel_crcEmb (v : BitVec 2) : (s.setChannel v).crcEmb = s.crcEmb := rfl
@[simp] theorem State.setChannel_crcCalc (v : BitVec 2) : (s.setChannel v).crcCalc = s.crcCalc := rfl
@[simp] theorem State.setChannel_crcAcc (v : BitVec 2) : (s.setChannel v).crcAcc = s.crcAcc := rfl
@[simp] theorem State.setChannel_key (v : BitVec 2) : (s.setChannel v).key = s.key := rfl
@[simp] theorem State.setChannel_block (v : BitVec 2) : (s.setChannel v).block = s.block := rfl
@[simp] theorem State.setChannel_mask (v : BitVec 2) : (s.setChannel v).mask = s.mask := rfl
@[simp] theorem State.setChannel_keyState (v : BitVec 2) : (s.setChannel v).keyState = s.keyState := rfl
@[simp] theorem State.setChannel_draws (v : BitVec 2) : (s.setChannel v).draws = s.draws := rfl
@[simp] theorem State.setChannel_pending (v : BitVec 2) : (s.setChannel v).pending = s.pending := rfl
@[simp] theorem State.setChannel_replies (v : BitVec 2) : (s.setChannel v).replies = s.replies := rfl
@[simp] theorem State.setChannel_needsReset (v : BitVec 2) : (s.setChannel v).needsReset = s.needsReset := rfl

@[simp] theorem State.setPos_channel (v : BitVec 5) : (s.setPos v).channel = s.channel := rfl
@[simp] theorem State.setPos_pos (v : BitVec 5) : (s.setPos v).pos = v := rfl
@[simp] theorem State.setPos_din (v : BitVec 5) : (s.setPos v).din = s.din := rfl
@[simp] theorem State.setPos_dout (v : BitVec 5) : (s.setPos v).dout = s.dout := rfl
@[simp] theorem State.setPos_pduType (v : BitVec 5) : (s.setPos v).pduType = s.pduType := rfl
@[simp] theorem State.setPos_errcode (v : BitVec 5) : (s.setPos v).errcode = s.errcode := rfl
@[simp] theorem State.setPos_valid (v : BitVec 5) : (s.setPos v).valid = s.valid := rfl
@[simp] theorem State.setPos_pduMatch (v : BitVec 5) : (s.setPos v).pduMatch = s.pduMatch := rfl
@[simp] theorem State.setPos_crcEmb (v : BitVec 5) : (s.setPos v).crcEmb = s.crcEmb := rfl
@[simp] theorem State.setPos_crcCalc (v : BitVec 5) : (s.setPos v).crcCalc = s.crcCalc := rfl
@[simp] theorem State.setPos_crcAcc (v : BitVec 5) : (s.setPos v).crcAcc = s.crcAcc := rfl
@[simp] theorem State.setPos_key (v : BitVec 5) : (s.setPos v).key = s.key := rfl
@[simp] theorem State.setPos_block (v : BitVec 5) : (s.setPos v).block = s.block := rfl
@[simp] theorem State.setPos_mask (v : BitVec 5) : (s.setPos v).mask = s.mask := rfl
@[simp] theorem State.setPos_keyState (v : BitVec 5) : (s.setPos v).keyState = s.keyState := rfl
@[simp] theorem State.setPos_draws (v : BitVec 5) : (s.setPos v).draws = s.draws := rfl
@[simp] theorem State.setPos_pending (v : BitVec 5) : (s.setPos v).pending = s.pending := rfl
@[simp] theorem State.setPos_replies (v : BitVec 5) : (s.setPos v).replies = s.replies := rfl
@[simp] theorem State.setPos_needsReset (v : BitVec 5) : (s.setPos v).needsReset = s.needsReset := rfl

@[simp] theorem State.setDin_channel (v : Byte) : (s.setDin v).channel = s.channel := rfl
@[simp] theorem State.setDin_pos (v : Byte) : (s.setDin v).pos = s.pos := rfl
@[simp] theorem State.setDin_din (v : Byte) : (s.setDin v).din = v := rfl
@[simp] theorem State.setDin_dout (v : Byte) : (s.setDin v).dout = s.dout := rfl
@[simp] theorem State.setDin_pduType (v : Byte) : (s.setDin v).pduType = s.pduType := rfl
@[simp] theorem State.setDin_errcode (v : Byte) : (s.setDin v).errcode = s.errcode := rfl
@[simp] theorem State.setDin_valid (v : Byte) : (s.setDin v).valid = s.valid := rfl
@[simp] theorem State.setDin_pduMatch (v : Byte) : (s.setDin v).pduMatch = s.pduMatch := rfl
@[simp] theorem State.setDin_crcEmb (v : Byte) : (s.setDin v).crcEmb = s.crcEmb := rfl
@[simp] theorem State.setDin_crcCalc (v : Byte) : (s.setDin v).crcCalc = s.crcCalc := rfl
@[simp] theorem State.setDin_crcAcc (v : Byte) : (s.setDin v).crcAcc = s.crcAcc := rfl
@[simp] theorem State.setDin_key (v : Byte) : (s.setDin v).key = s.key := rfl
@[simp] theorem State.setDin_block (v : Byte) : (s.setDin v).block = s.block := rfl
@[simp] theorem State.setDin_mask (v : Byte) : (s.setDin v).mask = s.mask := rfl
@[simp] theorem State.setDin_keyState (v : Byte) : (s.setDin v).keyState = s.keyState := rfl
@[simp] theorem State.setDin_draws (v : Byte) : (s.setDin v).draws = s.draws := rfl
@[simp] theorem State.setDin_pending (v : Byte) : (s.setDin v).pending = s.pending := rfl
@[simp] theorem State.setDin_replies (v : Byte) : (s.setDin v).replies = s.replies := rfl
@[simp] theorem State.setDin_needsReset (v : Byte) : (s.setDin v).needsReset = s.needsReset := rfl

@[simp] theorem State.setDout_channel (v : Byte) : (s.setDout v).channel = s.channel := rfl
@[simp] theorem State.setDout_pos (v : Byte) : (s.setDout v).pos = s.pos := rfl
@[simp] theorem State.setDout_din (v : Byte) : (s.setDout v).din = s.din := rfl
@[simp] theorem State.setDout_dout (v : Byte) : (s.setDout v).dout = v := rfl
@[simp] theorem State.setDout_pduType (v : Byte) : (s.setDout v).pduType = s.pduType := rfl
@[simp] theorem State.setDout_errcode (v : Byte) : (s.setDout v).errcode = s.errcode := rfl
@[simp] theorem State.setDout_valid (v : Byte) : (s.setDout v).valid = s.valid := rfl
@[simp] theorem State.setDout_pduMatch (v : Byte) : (s.setDout v).pduMatch = s.pduMatch := rfl
@[simp] theorem State.setDout_crcEmb (v : Byte) : (s.setDout v).crcEmb = s.crcEmb := rfl
@[simp] theorem State.setDout_crcCalc (v : Byte) : (s.setDout v).crcCalc = s.crcCalc := rfl
@[simp] theorem State.setDout_crcAcc (v : Byte) : (s.setDout v).crcAcc = s.crcAcc := rfl
@[simp] theorem State.setDout_key (v : Byte) : (s.setDout v).key = s.key := rfl
@[simp] theorem State.setDout_block (v : Byte) : (s.setDout v).block = s.block := rfl
@[simp] theorem State.setDout_mask (v : Byte) : (s.setDout v).mask = s.mask := rfl
@[simp] theorem State.setDout_keyState (v : Byte) : (s.setDout v).keyState = s.keyState := rfl
@[simp] theorem State.setDout_draws (v : Byte) : (s.setDout v).draws = s.draws := rfl
@[simp] theorem State.setDout_pending (v : Byte) : (s.setDout v).pending = s.pending := rfl
@[simp] theorem State.setDout_replies (v : Byte) : (s.setDout v).replies = s.replies := rfl
@[simp] theorem State.setDout_needsReset (v : Byte) : (s.setDout v).needsReset = s.needsReset := rfl

@[simp] theorem State.setPduType_channel (v : Byte) : (s.setPduType v).channel = s.channel := rfl
@[simp] theorem State.setPduType_pos (v : Byte) : (s.setPduType v).pos = s.pos := rfl
@[simp] theorem State.setPduType_din (v : Byte) : (s.setPduType v).din = s.din := rfl
@[simp] theorem State.setPduType_dout (v : Byte) : (s.setPduType v).dout = s.dout := rfl
@[simp] theorem State.setPduType_pduType (v : Byte) : (s.setPduType v).pduType = v := rfl
@[simp] theorem State.setPduType_errcode (v : Byte) : (s.setPduType v).errcode = s.errcode := rfl
@[simp] theorem State.setPduType_valid (v : Byte) : (s.setPduType v).valid = s.valid := rfl
@[simp] theorem State.setPduType_pduMatch (v : Byte) : (s.setPduType v).pduMatch = s.pduMatch := rfl
@[simp] theorem State.setPduType_crcEmb (v : Byte) : (s.setPduType v).crcEmb = s.crcEmb := rfl
@[simp] theorem State.setPduType_crcCalc (v : Byte) : (s.setPduType v).crcCalc = s.crcCalc := rfl
@[simp] theorem State.setPduType_crcAcc (v : Byte) : (s.setPduType v).crcAcc = s.crcAcc := rfl
@[simp] theorem State.setPduType_key (v : Byte) : (s.setPduType v).key = s.key := rfl
@[simp] theorem State.setPduType_block (v : Byte) : (s.setPduType v).block = s.block := rfl
@[simp] theorem State.setPduType_mask (v : Byte) : (s.setPduType v).mask = s.mask := rfl
@[simp] theorem State.setPduType_keyState (v : Byte) : (s.setPduType v).keyState = s.keyState := rfl
@[simp] theorem State.setPduType_draws (v : Byte) : (s.setPduType v).draws = s.draws := rfl
@[simp] theorem State.setPduType_pending (v : Byte) : (s.setPduType v).pending = s.pending := rfl
@[simp] theorem State.setPduType_replies (v : Byte) : (s.setPduType v).replies = s.replies := rfl
@[simp] theorem State.setPduType_needsReset (v : Byte) : (s.setPduType v).needsReset = s.needsReset := rfl

@[simp] theorem State.setErrcode_channel (v : Byte) : (s.setErrcode v).channel = s.channel := rfl
@[simp] theorem State.setErrcode_pos (v : Byte) : (s.setErrcode v).pos = s.pos := rfl
@[simp] theorem State.setErrcode_din (v : Byte) : (s.setErrcode v).din = s.din := rfl
@[simp] theorem State.setErrcode_dout (v : Byte) : (s.setErrcode v).dout = s.dout := rfl
@[simp] theorem State.setErrcode_pduType (v : Byte) : (s.setErrcode v).pduType = s.pduType := rfl
@[simp] theorem State.setErrcode_errcode (v : Byte) : (s.setErrcode v).errcode = v := rfl
@[simp] theorem State.setErrcode_valid (v : Byte) : (s.setErrcode v).valid = s.valid := rfl
@[simp] theorem State.setErrcode_pduMatch (v : Byte) : (s.setErrcode v).pduMatch = s.pduMatch := rfl
@[simp] theorem State.setErrcode_crcEmb (v : Byte) : (s.setErrcode v).crcEmb = s.crcEmb := rfl
@[simp] theorem State.setErrcode_crcCalc (v : Byte) : (s.setErrcode v).crcCalc = s.crcCalc := rfl
@[simp] theorem State.setErrcode_crcAcc (v : Byte) : (s.setErrcode v).crcAcc = s.crcAcc := rfl
@[simp] theorem State.setErrcode_key (v : Byte) : (s.setErrcode v).key = s.key := rfl
@[simp] theorem State.setErrcode_block (v : Byte) : (s.setErrcode v).block = s.block := rfl
@[simp] theorem State.setErrcode_mask (v : Byte) : (s.setErrcode v).mask = s.mask := rfl
@[simp] theorem State.setErrcode_keyState (v : Byte) : (s.setErrcode v).keyState = s.keyState := rfl
@[simp] theorem State.setErrcode_draws (v : Byte) : (s.setErrcode v).draws = s.draws := rfl
@[simp] theorem State.setErrcode_pending (v : Byte) : (s.setErrcode v).pending = s.pending := rfl
@[simp] theorem State.setErrcode_replies (v : Byte) : (s.setErrcode v).replies = s.replies := rfl
@[simp] theorem State.setErrcode_needsReset (v : Byte) : (s.setErrcode v).needsReset = s.needsReset := rfl

@[simp] theorem State.setValid_channel (v : Bool) : (s.setValid v).channel = s.channel := rfl
@[simp] theorem State.setValid_pos (v : Bool) : (s.setValid v).pos = s.pos := rfl
@[simp] theorem State.setValid_din (v : Bool) : (s.setValid v).din = s.din := rfl
@[simp] theorem State.setValid_dout (v : Bool) : (s.setValid v).dout = s.dout := rfl
@[simp] theorem State.setValid_pduType (v : Bool) : (s.setValid v).pduType = s.pduType := rfl
@[simp] theorem State.setValid_errcode (v : Bool) : (s.setValid v).errcode = s.errcode := rfl
@[simp] theorem State.setValid_valid (v : Bool) : (s.setValid v).valid = v := rfl
@[simp] theorem State.setValid_pduMatch (v : Bool) : (s.setValid v).pduMatch = s.pduMatch := rfl
@[simp] theorem State.setValid_crcEmb (v : Bool) : (s.setValid v).crcEmb = s.crcEmb := rfl
@[simp] theorem State.setValid_crcCalc (v : Bool) : (s.setValid v).crcCalc = s.crcCalc := rfl
@[simp] theorem State.setValid_crcAcc (v : Bool) : (s.setValid v).crcAcc = s.crcAcc := rfl
@[simp] theorem State.setValid_key (v : Bool) : (s.setValid v).key = s.key := rfl
@[simp] theorem State.setValid_block (v : Bool) : (s.setValid v).block = s.block := rfl
@[simp] theorem State.setValid_mask (v : Bool) : (s.setValid v).mask = s.mask := rfl
@[simp] theorem State.setValid_keyState (v : Bool) : (s.setValid v).keyState = s.keyState := rfl
@[simp] theorem State.setValid_draws (v : Bool) : (s.setValid v).draws = s.draws := rfl
@[simp] theorem State.setValid_pending (v : Bool) : (s.setValid v).pending = s.pending := rfl
@[simp] theorem State.setValid_replies (v : Bool) : (s.setValid v).replies = s.replies := rfl
@[simp] theorem State.setValid_needsReset (v : Bool) : (s.setValid v).needsReset = s.needsReset := rfl

@[simp] theorem State.setPduMatch_channel (v : Bool) : (s.setPduMatch v).channel = s.channel := rfl
@[simp] theorem State.setPduMatch_pos (v : Bool) : (s.setPduMatch v).pos = s.pos := rfl
@[simp] theorem State.setPduMatch_din (v : Bool) : (s.setPduMatch v).din = s.din := rfl
@[simp] theorem State.setPduMatch_dout (v : Bool) : (s.setPduMatch v).dout = s.dout := rfl
@[simp] theorem State.setPduMatch_pduType (v : Bool) : (s.setPduMatch v).pduType = s.pduType := rfl
@[simp] theorem State.setPduMatch_errcode (v : Bool) : (s.setPduMatch v).errcode = s.errcode := rfl
@[simp] theorem State.setPduMatch_valid (v : Bool) : (s.setPduMatch v).valid = s.valid := rfl
@[simp] theorem State.setPduMatch_pduMatch (v : Bool) : (s.setPduMatch v).pduMatch = v := rfl
@[simp] theorem State.setPduMatch_crcEmb (v : Bool) : (s.setPduMatch v).crcEmb = s.crcEmb := rfl
@[simp] theorem State.setPduMatch_crcCalc (v : Bool) : (s.setPduMatch v).crcCalc = s.crcCalc := rfl
@[simp] theorem State.setPduMatch_crcAcc (v : Bool) : (s.setPduMatch v).crcAcc = s.crcAcc := rfl
@[simp] theorem State.setPduMatch_key (v : Bool) : (s.setPduMatch v).key = s.key := rfl
@[simp] theorem State.setPduMatch_block (v : Bool) : (s.setPduMatch v).block = s.block := rfl
@[simp] theorem State.setPduMatch_mask (v : Bool) : (s.setPduMatch v).mask = s.mask := rfl
@[simp] theorem State.setPduMatch_keyState (v : Bool) : (s.setPduMatch v).keyState = s.keyState := rfl
@[simp] theorem State.setPduMatch_draws (v : Bool) : (s.setPduMatch v).draws = s.draws := rfl
@[simp] theorem State.setPduMatch_pending (v : Bool) : (s.setPduMatch v).pending = s.pending := rfl
@[simp] theorem State.setPduMatch_replies (v : Bool) : (s.setPduMatch v).replies = s.replies := rfl
@[simp] theorem State.setPduMatch_needsReset (v : Bool) : (s.setPduMatch v).needsReset = s.needsReset := rfl

@[simp] theorem State.setCrcEmb_channel (v : Word24) : (s.setCrcEmb v).channel = s.channel := rfl
@[simp] theorem State.setCrcEmb_pos (v : Word24) : (s.setCrcEmb v).pos = s.pos := rfl
@[simp] theorem State.setCrcEmb_din (v : Word24) : (s.setCrcEmb v).din = s.din := rfl
@[simp] theorem State.setCrcEmb_dout (v : Word24) : (s.setCrcEmb v).dout = s.dout := rfl
@[simp] theorem State.setCrcEmb_pduType (v : Word24) : (s.setCrcEmb v).pduType = s.pduType := rfl
@[simp] theorem State.setCrcEmb_errcode (v : Word24) : (s.setCrcEmb v).errcode = s.errcode := rfl
@[simp] theorem State.setCrcEmb_valid (v : Word24) : (s.setCrcEmb v).valid = s.valid := rfl
@[simp] theorem State.setCrcEmb_pduMatch (v : Word24) : (s.setCrcEmb v).pduMatch = s.pduMatch := rfl
@[simp] theorem State.setCrcEmb_crcEmb (v : Word24) : (s.setCrcEmb v).crcEmb = v := rfl
@[simp] theorem State.setCrcEmb_crcCalc (v : Word24) : (s.setCrcEmb v).crcCalc = s.crcCalc := rfl
@[simp] theorem State.setCrcEmb_crcAcc (v : Word24) : (s.setCrcEmb v).crcAcc = s.crcAcc := rfl
@[simp] theorem State.setCrcEmb_key (v : Word24) : (s.setCrcEmb v).key = s.key := rfl
@[simp] theorem State.setCrcEmb_block (v : Word24) : (s.setCrcEmb v).block = s.block := rfl
@[simp] theorem State.setCrcEmb_mask (v : Word24) : (s.setCrcEmb v).mask = s.mask := rfl
@[simp] theorem State.setCrcEmb_keyState (v : Word24) : (s.setCrcEmb v).keyState = s.keyState := rfl
@[simp] theorem State.setCrcEmb_draws (v : Word24) : (s.setCrcEmb v).draws = s.draws := rfl
@[simp] theorem State.setCrcEmb_pending (v : Word24) : (s.setCrcEmb v).pending = s.pending := rfl
@[simp] theorem State.setCrcEmb_replies (v : Word24) : (s.setCrcEmb v).replies = s.replies := rfl
@[simp] theorem State.setCrcEmb_needsReset (v : Word24) : (s.setCrcEmb v).needsReset = s.needsReset := rfl

@[simp] theorem State.setCrcCalc_channel (v : Word24) : (s.setCrcCalc v).channel = s.channel := rfl
@[simp] theorem State.setCrcCalc_pos (v : Word24) : (s.setCrcCalc v).pos = s.pos := rfl
@[simp] theorem State.setCrcCalc_din (v : Word24) : (s.setCrcCalc v).din = s.din := rfl
@[simp] theorem State.setCrcCalc_dout (v : Word24) : (s.setCrcCalc v).dout = s.dout := rfl
@[simp] theorem State.setCrcCalc_pduType (v : Word24) : (s.setCrcCalc v).pduType = s.pduType := rfl
@[simp] theorem State.setCrcCalc_errcode (v : Word24) : (s.setCrcCalc v).errcode = s.errcode := rfl
@[simp] theorem State.setCrcCalc_valid (v : Word24) : (s.setCrcCalc v).valid = s.valid := rfl
@[simp] theorem State.setCrcCalc_pduMatch (v : Word24) : (s.setCrcCalc v).pduMatch = s.pduMatch := rfl
@[simp] theorem State.setCrcCalc_crcEmb (v : Word24) : (s.setCrcCalc v).crcEmb = s.crcEmb := rfl
@[simp] theorem State.setCrcCalc_crcCalc (v : Word24) : (s.setCrcCalc v).crcCalc = v := rfl
@[simp] theorem State.setCrcCalc_crcAcc (v : Word24) : (s.setCrcCalc v).crcAcc = s.crcAcc := rfl
@[simp] theorem State.setCrcCalc_key (v : Word24) : (s.setCrcCalc v).key = s.key := rfl
@[simp] theorem State.setCrcCalc_block (v : Word24) : (s.setCrcCalc v).block = s.block := rfl
@[simp] theorem State.setCrcCalc_mask (v : Word24) : (s.setCrcCalc v).mask = s.mask := rfl
@[simp] theorem State.setCrcCalc_keyState (v : Word24) : (s.setCrcCalc v).keyState = s.keyState := rfl
@[simp] theorem State.setCrcCalc_draws (v : Word24) : (s.setCrcCalc v).draws = s.draws := rfl
@[simp] theorem State.setCrcCalc_pending (v : Word24) : (s.setCrcCalc v).pending = s.pending := rfl
@[simp] theorem State.setCrcCalc_replies (v : Word24) : (s.setCrcCalc v).replies = s.replies := rfl
@[simp] theorem State.setCrcCalc_needsReset (v : Word24) : (s.setCrcCalc v).needsReset = s.needsReset := rfl

@[simp] theorem State.setCrcAcc_channel (v : Word24) : (s.setCrcAcc v).channel = s.channel := rfl
@[simp] theorem State.setCrcAcc_pos (v : Word24) : (s.setCrcAcc v).pos = s.pos := rfl
@[simp] theorem State.setCrcAcc_din (v : Word24) : (s.setCrcAcc v).din = s.din := rfl
@[simp] theorem State.setCrcAcc_dout (v : Word24) : (s.setCrcAcc v).dout = s.dout := rfl
@[simp] theorem State.setCrcAcc_pduType (v : Word24) : (s.setCrcAcc v).pduType = s.pduType := rfl
@[simp] theorem State.setCrcAcc_errcode (v : Word24) : (s.setCrcAcc v).errcode = s.errcode := rfl
@[simp] theorem State.setCrcAcc_valid (v : Word24) : (s.setCrcAcc v).valid = s.valid := rfl
@[simp] theorem State.setCrcAcc_pduMatch (v : Word24) : (s.setCrcAcc v).pduMatch = s.pduMatch := rfl
@[simp] theorem State.setCrcAcc_crcEmb (v : Word24) : (s.setCrcAcc v).crcEmb = s.crcEmb := rfl
@[simp] theorem State.setCrcAcc_crcCalc (v : Word24) : (s.setCrcAcc v).crcCalc = s.crcCalc := rfl
@[simp] theorem State.setCrcAcc_crcAcc (v : Word24) : (s.setCrcAcc v).crcAcc = v := rfl
@[simp] theorem State.setCrcAcc_key (v : Word24) : (s.setCrcAcc v).key = s.key := rfl
@[simp] theorem State.setCrcAcc_block (v : Word24) : (s.setCrcAcc v).block = s.block := rfl
@[simp] theorem State.setCrcAcc_mask (v : Word24) : (s.setCrcAcc v).mask = s.mask := rfl
@[simp] theorem State.setCrcAcc_keyState (v : Word24) : (s.setCrcAcc v).keyState = s.keyState := rfl
@[simp] theorem State.setCrcAcc_draws (v : Word24) : (s.setCrcAcc v).draws = s.draws := rfl
@[simp] theorem State.setCrcAcc_pending (v : Word24) : (s.setCrcAcc v).pending = s.pending := rfl
@[simp] theorem State.setCrcAcc_replies (v : Word24) : (s.setCrcAcc v).replies = s.replies := rfl
@[simp] theorem State.setCrcAcc_needsReset (v : Word24) : (s.setCrcAcc v).needsReset = s.needsReset := rfl

@[simp] theorem State.setKey_channel (v : Chunk) : (s.setKey v).channel = s.channel := rfl
@[simp] theorem State.setKey_pos (v : Chunk) : (s.setKey v).pos = s.pos := rfl
@[simp] theorem State.setKey_din (v : Chunk) : (s.setKey v).din = s.din := rfl
@[simp] theorem State.setKey_dout (v : Chunk) : (s.setKey v).dout = s.dout := rfl
@[simp] theorem State.setKey_pduType (v : Chunk) : (s.setKey v).pduType = s.pduType := rfl
@[simp] theorem State.setKey_errcode (v : Chunk) : (s.setKey v).errcode = s.errcode := rfl
@[simp] theorem State.setKey_valid (v : Chunk) : (s.setKey v).valid = s.valid := rfl
@[simp] theorem State.setKey_pduMatch (v : Chunk) : (s.setKey v).pduMatch = s.pduMatch := rfl
@[simp] theorem State.setKey_crcEmb (v : Chunk) : (s.setKey v).crcEmb = s.crcEmb := rfl
@[simp] theorem State.setKey_crcCalc (v : Chunk) : (s.setKey v).crcCalc = s.crcCalc := rfl
@[simp] theorem State.setKey_crcAcc (v : Chunk) : (s.setKey v).crcAcc = s.crcAcc := rfl
@[simp] theorem State.setKey_key (v : Chunk) : (s.setKey v).key = v := rfl
@[simp] theorem State.setKey_block (v : Chunk) : (s.setKey v).block = s.block := rfl
@[simp] theorem State.setKey_mask (v : Chunk) : (s.setKey v).mask = s.mask := rfl
@[simp] theorem State.setKey_keyState (v : Chunk) : (s.setKey v).keyState = s.keyState := rfl
@[simp] theorem State.setKey_draws (v : Chunk) : (s.setKey v).draws = s.draws := rfl
@[simp] theorem State.setKey_pending (v : Chunk) : (s.setKey v).pending = s.pending := rfl
@[simp] theorem State.setKey_replies (v : Chunk) : (s.setKey v).replies = s.replies := rfl
@[simp] theorem State.setKey_needsReset (v : Chunk) : (s.setKey v).needsReset = s.needsReset := rfl

@[simp] theorem State.setBlock_channel (v : Chunk) : (s.setBlock v).channel = s.channel := rfl
@[simp] theorem State.setBlock_pos (v : Chunk) : (s.setBlock v).pos = s.pos := rfl
@[simp] theorem State.setBlock_din (v : Chunk) : (s.setBlock v).din = s.din := rfl
@[simp] theorem State.setBlock_dout (v : Chunk) : (s.setBlock v).dout = s.dout := rfl
@[simp] theorem State.setBlock_pduType (v : Chunk) : (s.setBlock v).pduType = s.pduType := rfl
@[simp] theorem State.setBlock_errcode (v : Chunk) : (s.setBlock v).errcode = s.errcode := rfl
@[simp] theorem State.setBlock_valid (v : Chunk) : (s.setBlock v).valid = s.valid := rfl
@[simp] theorem State.setBlock_pduMatch (v : Chunk) : (s.setBlock v).pduMatch = s.pduMatch := rfl
@[simp] theorem State.setBlock_crcEmb (v : Chunk) : (s.setBlock v).crcEmb = s.crcEmb := rfl
@[simp] theorem State.setBlock_crcCalc (v : Chunk) : (s.setBlock v).crcCalc = s.crcCalc := rfl
@[simp] theorem State.setBlock_crcAcc (v : Chunk) : (s.setBlock v).crcAcc = s.crcAcc := rfl
@[simp] theorem State.setBlock_key (v : Chunk) : (s.setBlock v).key = s.key := rfl
@[simp] theorem State.setBlock_block (v : Chunk) : (s.setBlock v).block = v := rfl
@[simp] theorem State.setBlock_mask (v : Chunk) : (s.setBlock v).mask = s.mask := rfl
@[simp] theorem State.setBlock_keyState (v : Chunk) : (s.setBlock v).keyState = s.keyState := rfl
@[simp] theorem State.setBlock_draws (v : Chunk) : (s.setBlock v).draws = s.draws := rfl
@[simp] theorem State.setBlock_pending (v : Chunk) : (s.setBlock v).pending = s.pending := rfl
@[simp] theorem State.setBlock_replies (v : Chunk) : (s.setBlock v).replies = s.replies := rfl
@[simp] theorem State.setBlock_needsReset (v : Chunk) : (s.setBlock v).needsReset = s.needsReset := rfl

@[simp] theorem State.setMask_channel (v : MaskFile) : (s.setMask v).channel = s.channel := rfl
@[simp] theorem State.setMask_pos (v : MaskFile) : (s.setMask v).pos = s.pos := rfl
@[simp] theorem State.setMask_din (v : MaskFile) : (s.setMask v).din = s.din := rfl
@[simp] theorem State.setMask_dout (v : MaskFile) : (s.setMask v).dout = s.dout := rfl
@[simp] theorem State.setMask_pduType (v : MaskFile) : (s.setMask v).pduType = s.pduType := rfl
@[simp] theorem State.setMask_errcode (v : MaskFile) : (s.setMask v).errcode = s.errcode := rfl
@[simp] theorem State.setMask_valid (v : MaskFile) : (s.setMask v).valid = s.valid := rfl
@[simp] theorem State.setMask_pduMatch (v : MaskFile) : (s.setMask v).pduMatch = s.pduMatch := rfl
@[simp] theorem State.setMask_crcEmb (v : MaskFile) : (s.setMask v).crcEmb = s.crcEmb := rfl
@[simp] theorem State.setMask_crcCalc (v : MaskFile) : (s.setMask v).crcCalc = s.crcCalc := rfl
@[simp] theorem State.setMask_crcAcc (v : MaskFile) : (s.setMask v).crcAcc = s.crcAcc := rfl
@[simp] theorem State.setMask_key (v : MaskFile) : (s.setMask v).key = s.key := rfl
@[simp] theorem State.setMask_block (v : MaskFile) : (s.setMask v).block = s.block := rfl
@[simp] theorem State.setMask_mask (v : MaskFile) : (s.setMask v).mask = v := rfl
@[simp] theorem State.setMask_keyState (v : MaskFile) : (s.setMask v).keyState = s.keyState := rfl
@[simp] theorem State.setMask_draws (v : MaskFile) : (s.setMask v).draws = s.draws := rfl
@[simp] theorem State.setMask_pending (v : MaskFile) : (s.setMask v).pending = s.pending := rfl
@[simp] theorem State.setMask_replies (v : MaskFile) : (s.setMask v).replies = s.replies := rfl
@[simp] theorem State.setMask_needsReset (v : MaskFile) : (s.setMask v).needsReset = s.needsReset := rfl

@[simp] theorem State.setKeyState_channel (v : KeyState) : (s.setKeyState v).channel = s.channel := rfl
@[simp] theorem State.setKeyState_pos (v : KeyState) : (s.setKeyState v).pos = s.pos := rfl
@[simp] theorem State.setKeyState_din (v : KeyState) : (s.setKeyState v).din = s.din := rfl
@[simp] theorem State.setKeyState_dout (v : KeyState) : (s.setKeyState v).dout = s.dout := rfl
@[simp] theorem State.setKeyState_pduType (v : KeyState) : (s.setKeyState v).pduType = s.pduType := rfl
@[simp] theorem State.setKeyState_errcode (v : KeyState) : (s.setKeyState v).errcode = s.errcode := rfl
@[simp] theorem State.setKeyState_valid (v : KeyState) : (s.setKeyState v).valid = s.valid := rfl
@[simp] theorem State.setKeyState_pduMatch (v : KeyState) : (s.setKeyState v).pduMatch = s.pduMatch := rfl
@[simp] theorem State.setKeyState_crcEmb (v : KeyState) : (s.setKeyState v).crcEmb = s.crcEmb := rfl
@[simp] theorem State.setKeyState_crcCalc (v : KeyState) : (s.setKeyState v).crcCalc = s.crcCalc := rfl
@[simp] theorem State.setKeyState_crcAcc (v : KeyState) : (s.setKeyState v).crcAcc = s.crcAcc := rfl
@[simp] theorem State.setKeyState_key (v : KeyState) : (s.setKeyState v).key = s.key := rfl
@[simp] theorem State.setKeyState_block (v : KeyState) : (s.setKeyState v).block = s.block := rfl
@[simp] theorem State.setKeyState_mask (v : KeyState) : (s.setKeyState v).mask = s.mask := rfl
@[simp] theorem State.setKeyState_keyState (v : KeyState) : (s.setKeyState v).keyState = v := rfl
@[simp] theorem State.setKeyState_draws (v : KeyState) : (s.setKeyState v).draws = s.draws := rfl
@[simp] theorem State.setKeyState_pending (v : KeyState) : (s.setKeyState v).pending = s.pending := rfl
@[simp] theorem State.setKeyState_replies (v : KeyState) : (s.setKeyState v).replies = s.replies := rfl
@[simp] theorem State.setKeyState_needsReset (v : KeyState) : (s.setKeyState v).needsReset = s.needsReset := rfl

@[simp] theorem State.setDraws_channel (v : Nat) : (s.setDraws v).channel = s.channel := rfl
@[simp] theorem State.setDraws_pos (v : Nat) : (s.setDraws v).pos = s.pos := rfl
@[simp] theorem State.setDraws_din (v : Nat) : (s.setDraws v).din = s.din := rfl
@[simp] theorem State.setDraws_dout (v : Nat) : (s.setDraws v).dout = s.dout := rfl
@[simp] theorem State.setDraws_pduType (v : Nat) : (s.setDraws v).pduType = s.pduType := rfl
@[simp] theorem State.setDraws_errcode (v : Nat) : (s.setDraws v).errcode = s.errcode := rfl
@[simp] theorem State.setDraws_valid (v : Nat) : (s.setDraws v).valid = s.valid := rfl
@[simp] theorem State.setDraws_pduMatch (v : Nat) : (s.setDraws v).pduMatch = s.pduMatch := rfl
@[simp] theorem State.setDraws_crcEmb (v : Nat) : (s.setDraws v).crcEmb = s.crcEmb := rfl
@[simp] theorem State.setDraws_crcCalc (v : Nat) : (s.setDraws v).crcCalc = s.crcCalc := rfl
@[simp] theorem State.setDraws_crcAcc (v : Nat) : (s.setDraws v).crcAcc = s.crcAcc := rfl
@[simp] theorem State.setDraws_key (v : Nat) : (s.setDraws v).key = s.key := rfl
@[simp] theorem State.setDraws_block (v : Nat) : (s.setDraws v).block = s.block := rfl
@[simp] theorem State.setDraws_mask (v : Nat) : (s.setDraws v).mask = s.mask := rfl
@[simp] theorem State.setDraws_keyState (v : Nat) : (s.setDraws v).keyState = s.keyState := rfl
@[simp] theorem State.setDraws_draws (v : Nat) : (s.setDraws v).draws = v := rfl
@[simp] theorem State.setDraws_pending (v : Nat) : (s.setDraws v).pending = s.pending := rfl
@[simp] theorem State.setDraws_replies (v : Nat) : (s.setDraws v).replies = s.replies := rfl
@[simp] theorem State.setDraws_needsReset (v : Nat) : (s.setDraws v).needsReset = s.needsReset := rfl

@[simp] theorem State.setPending_channel (v : List PortEvent) : (s.setPending v).channel = s.channel := rfl
@[simp] theorem State.setPending_pos (v : List PortEvent) : (s.setPending v).pos = s.pos := rfl
@[simp] theorem State.setPending_din (v : List PortEvent) : (s.setPending v).din = s.din := rfl
@[simp] theorem State.setPending_dout (v : List PortEvent) : (s.setPending v).dout = s.dout := rfl
@[simp] theorem State.setPending_pduType (v : List PortEvent) : (s.setPending v).pduType = s.pduType := rfl
@[simp] theorem State.setPending_errcode (v : List PortEvent) : (s.setPending v).errcode = s.errcode := rfl
@[simp] theorem State.setPending_valid (v : List PortEvent) : (s.setPending v).valid = s.valid := rfl
@[simp] theorem State.setPending_pduMatch (v : List PortEvent) : (s.setPending v).pduMatch = s.pduMatch := rfl
@[simp] theorem State.setPending_crcEmb (v : List PortEvent) : (s.setPending v).crcEmb = s.crcEmb := rfl
@[simp] theorem State.setPending_crcCalc (v : List PortEvent) : (s.setPending v).crcCalc = s.crcCalc := rfl
@[simp] theorem State.setPending_crcAcc (v : List PortEvent) : (s.setPending v).crcAcc = s.crcAcc := rfl
@[simp] theorem State.setPending_key (v : List PortEvent) : (s.setPending v).key = s.key := rfl
@[simp] theorem State.setPending_block (v : List PortEvent) : (s.setPending v).block = s.block := rfl
@[simp] theorem State.setPending_mask (v : List PortEvent) : (s.setPending v).mask = s.mask := rfl
@[simp] theorem State.setPending_keyState (v : List PortEvent) : (s.setPending v).keyState = s.keyState := rfl
@[simp] theorem State.setPending_draws (v : List PortEvent) : (s.setPending v).draws = s.draws := rfl
@[simp] theorem State.setPending_pending (v : List PortEvent) : (s.setPending v).pending = v := rfl
@[simp] theorem State.setPending_replies (v : List PortEvent) : (s.setPending v).replies = s.replies := rfl
@[simp] theorem State.setPending_needsReset (v : List PortEvent) : (s.setPending v).needsReset = s.needsReset := rfl

@[simp] theorem State.setReplies_channel (v : List Byte) : (s.setReplies v).channel = s.channel := rfl
@[simp] theorem State.setReplies_pos (v : List Byte) : (s.setReplies v).pos = s.pos := rfl
@[simp] theorem State.setReplies_din (v : List Byte) : (s.setReplies v).din = s.din := rfl
@[simp] theorem State.setReplies_dout (v : List Byte) : (s.setReplies v).dout = s.dout := rfl
@[simp] theorem State.setReplies_pduType (v : List Byte) : (s.setReplies v).pduType = s.pduType := rfl
@[simp] theorem State.setReplies_errcode (v : List Byte) : (s.setReplies v).errcode = s.errcode := rfl
@[simp] theorem State.setReplies_valid (v : List Byte) : (s.setReplies v).valid = s.valid := rfl
@[simp] theorem State.setReplies_pduMatch (v : List Byte) : (s.setReplies v).pduMatch = s.pduMatch := rfl
@[simp] theorem State.setReplies_crcEmb (v : List Byte) : (s.setReplies v).crcEmb = s.crcEmb := rfl
@[simp] theorem State.setReplies_crcCalc (v : List Byte) : (s.setReplies v).crcCalc = s.crcCalc := rfl
@[simp] theorem State.setReplies_crcAcc (v : List Byte) : (s.setReplies v).crcAcc = s.crcAcc := rfl
@[simp] theorem State.setReplies_key (v : List Byte) : (s.setReplies v).key = s.key := rfl
@[simp] theorem State.setReplies_block (v : List Byte) : (s.setReplies v).block = s.block := rfl
@[simp] theorem State.setReplies_mask (v : List Byte) : (s.setReplies v).mask = s.mask := rfl
@[simp] theorem State.setReplies_keyState (v : List Byte) : (s.setReplies v).keyState = s.keyState := rfl
@[simp] theorem State.setReplies_draws (v : List Byte) : (s.setReplies v).draws = s.draws := rfl
@[simp] theorem State.setReplies_pending (v : List Byte) : (s.setReplies v).pending = s.pending := rfl
@[simp] theorem State.setReplies_replies (v : List Byte) : (s.setReplies v).replies = v := rfl
@[simp] theorem State.setReplies_needsReset (v : List Byte) : (s.setReplies v).needsReset = s.needsReset := rfl

@[simp] theorem State.setNeedsReset_channel (v : Bool) : (s.setNeedsReset v).channel = s.channel := rfl
@[simp] theorem State.setNeedsReset_pos (v : Bool) : (s.setNeedsReset v).pos = s.pos := rfl
@[simp] theorem State.setNeedsReset_din (v : Bool) : (s.setNeedsReset v).din = s.din := rfl
@[simp] theorem State.setNeedsReset_dout (v : Bool) : (s.setNeedsReset v).dout = s.dout := rfl
@[simp] theorem State.setNeedsReset_pduType (v : Bool) : (s.setNeedsReset v).pduType = s.pduType := rfl
@[simp] theorem State.setNeedsReset_errcode (v : Bool) : (s.setNeedsReset v).errcode = s.errcode := rfl
@[simp] theorem State.setNeedsReset_valid (v : Bool) : (s.setNeedsReset v).valid = s.valid := rfl
@[simp] theorem State.setNeedsReset_pduMatch (v : Bool) : (s.setNeedsReset v).pduMatch = s.pduMatch := rfl
@[simp] theorem State.setNeedsReset_crcEmb (v : Bool) : (s.setNeedsReset v).crcEmb = s.crcEmb := rfl
@[simp] theorem State.setNeedsReset_crcCalc (v : Bool) : (s.setNeedsReset v).crcCalc = s.crcCalc := rfl
@[simp] theorem State.setNeedsReset_crcAcc (v : Bool) : (s.setNeedsReset v).crcAcc = s.crcAcc := rfl
@[simp] theorem State.setNeedsReset_key (v : Bool) : (s.setNeedsReset v).key = s.key := rfl
@[simp] theorem State.setNeedsReset_block (v : Bool) : (s.setNeedsReset v).block = s.block := rfl
@[simp] theorem State.setNeedsReset_mask (v : Bool) : (s.setNeedsReset v).mask = s.mask := rfl
@[simp] theorem State.setNeedsReset_keyState (v : Bool) : (s.setNeedsReset v).keyState = s.keyState := rfl
@[simp] theorem State.setNeedsReset_draws (v : Bool) : (s.setNeedsReset v).draws = s.draws := rfl
@[simp] theorem State.setNeedsReset_pending (v : Bool) : (s.setNeedsReset v).pending = s.pending := rfl
@[simp] theorem State.setNeedsReset_replies (v : Bool) : (s.setNeedsReset v).replies = s.replies := rfl
@[simp] theorem State.setNeedsReset_needsReset (v : Bool) : (s.setNeedsReset v).needsReset = v := rfl

end Sys2Proof.Machine
end

