-- ==== Sys2Proof/Laws/Ops.lean ====
section
/-!
SUPPORT. What the shared operations can do: how a command ends, draws, reset, and the operands that are decoded.
-/

namespace Sys2Proof.Machine

variable (s : State)

/-! ### How a command ends -/

theorem raise_eq (e : CommandError) : raise e s = .next (s.setErrcode e.code) := rfl

theorem complete_eq : complete s = .next (s.setErrcode 0x00) := rfl

@[simp] theorem raise_eq_next (e : CommandError) (t : State) : raise e s = .next t ↔ t = s.setErrcode e.code := by
  simp [raise, eq_comm]

@[simp] theorem complete_eq_next (t : State) : complete s = .next t ↔ t = s.setErrcode 0x00 := by
  simp [complete, eq_comm]

@[simp] theorem code_illegalCommand : CommandError.illegalCommand.code = 0x01 := rfl

@[simp] theorem code_badChannel : CommandError.badChannel.code = 0x02 := rfl

@[simp] theorem code_badPosition : CommandError.badPosition.code = 0x03 := rfl

/-- An error's code is never the code of success. -/
theorem code_ne_zero (e : CommandError) : e.code ≠ 0x00 := by cases e <;> decide

theorem code_le_three (e : CommandError) : e.code.toNat ≤ 3 := by cases e <;> decide

/-! ### Draws -/

@[simp] theorem drawChunk_getElem (i : Nat) (h : i < 16) : (drawChunk s)[i] = Config.freeByte (s.draws + i) := by
  simp [drawChunk, drawBytes]

@[simp] theorem afterDraw_draws : (afterDraw s).draws = s.draws + 16 := rfl

theorem afterDraw_eq : afterDraw s = s.setDraws (s.draws + 16) := rfl

/-! ### Reset -/

theorem resetBlock_eq :
    resetBlock s = ((State.reset.setDraws s.draws).setPending s.pending).setReplies s.replies := rfl

@[simp] theorem resetBlock_pending : (resetBlock s).pending = s.pending := rfl

@[simp] theorem resetBlock_replies : (resetBlock s).replies = s.replies := rfl

@[simp] theorem resetBlock_draws : (resetBlock s).draws = s.draws := rfl

@[simp] theorem resetBlock_needsReset : (resetBlock s).needsReset = false := rfl

@[simp] theorem resetBlock_keyState : (resetBlock s).keyState = .raw := rfl

@[simp] theorem resetBlock_errcode : (resetBlock s).errcode = 0x00 := rfl

/-! ### Decoded operands -/

theorem selectedChannel_ok {c : Fin 3} (h : s.channel.toNat = c) : selectedChannel s = .ok c := by
  have hc : s.channel.toNat < 3 := h ▸ c.isLt
  simp only [selectedChannel, hc, dite_true]
  exact congrArg Except.ok (Fin.ext h)

theorem selectedChannel_bad (h : s.channel = 3) : selectedChannel s = .error .badChannel := by
  simp [selectedChannel, h]

theorem selectedPosition_ok {p : Fin 17} (h : s.pos.toNat = p) : selectedPosition s = .ok p := by
  have hp : s.pos.toNat < 17 := h ▸ p.isLt
  simp only [selectedPosition, hp, dite_true]
  exact congrArg Except.ok (Fin.ext h)

theorem selectedPosition_bad (h : 16 < s.pos.toNat) : selectedPosition s = .error .badPosition := by
  have hp : ¬s.pos.toNat < 17 := by omega
  simp [selectedPosition, hp]

/-- A channel register that does not hold 3 selects a table. -/
theorem channel_lt_three (h : s.channel ≠ 3) : s.channel.toNat < 3 := by
  have h4 := s.channel.isLt
  have : s.channel.toNat ≠ 3 := fun e => h (BitVec.eq_of_toNat_eq (by simpa using e))
  omega

/-- Everything the channel operand can be: a table's number, or BadChannel exactly at 3. -/
theorem selectedChannel_cases :
    (∃ c : Fin 3, s.channel.toNat = c ∧ selectedChannel s = .ok c) ∨
      (s.channel = 3 ∧ selectedChannel s = .error .badChannel) := by
  by_cases h : s.channel = 3
  · exact .inr ⟨h, selectedChannel_bad s h⟩
  · exact .inl ⟨⟨s.channel.toNat, channel_lt_three s h⟩, rfl, selectedChannel_ok s rfl⟩

/-- Everything the position operand can be: a position, or BadPosition exactly above 16. -/
theorem selectedPosition_cases :
    (∃ p : Fin 17, s.pos.toNat = p ∧ selectedPosition s = .ok p) ∨
      (16 < s.pos.toNat ∧ selectedPosition s = .error .badPosition) := by
  by_cases h : 16 < s.pos.toNat
  · exact .inr ⟨h, selectedPosition_bad s h⟩
  · exact .inl ⟨⟨s.pos.toNat, by omega⟩, rfl, selectedPosition_ok s rfl⟩

/-- Everything COND's mask operand can be, the channel's error before the position's. -/
theorem selectedMaskByte_cases :
    (∃ (c : Fin 3) (p : Fin 17), s.channel.toNat = c ∧ s.pos.toNat = p ∧ selectedMaskByte s = .ok (maskByte s c p)) ∨
      (s.channel = 3 ∧ selectedMaskByte s = .error .badChannel) ∨
      (s.channel ≠ 3 ∧ 16 < s.pos.toNat ∧ selectedMaskByte s = .error .badPosition) := by
  obtain ⟨c, hc, ec⟩ | ⟨hc, ec⟩ := selectedChannel_cases s
  · obtain ⟨p, hp, ep⟩ | ⟨hp, ep⟩ := selectedPosition_cases s
    · exact .inl ⟨c, p, hc, hp, by simp [selectedMaskByte, ec, ep]⟩
    · have hne : s.channel ≠ 3 := fun h => absurd hc (by rw [h]; have := c.isLt; simp; omega)
      exact .inr (.inr ⟨hne, hp, by simp [selectedMaskByte, ec, ep]⟩)
  · exact .inr (.inl ⟨hc, by simp [selectedMaskByte, ec]⟩)

end Sys2Proof.Machine
end

