-- ==== Sys2Proof/Laws/PerInstr.lean ====
section
/-!
SUPPORT. What holds of each command as syntax, one lemma for each constructor.
-/

namespace Sys2Proof.Laws.Encoding

/-- A command's byte is a well-formed command byte that decodes to the command, with `rsv` 0 and its opcode in bits 3:0
(30_encoding.md R71 to R73). -/
def Statement (i : Instr) : Prop :=
  i.wellFormed = true ∧ commandByteOk (encode i) = true ∧ rsvField (encode i) = 0 ∧ opField (encode i) = opcode i ∧
    decode (encode i) = .ok i

theorem nop : Statement .nop := by unfold Statement; decide +kernel

theorem rev : Statement .rev := by unfold Statement; decide +kernel

theorem cond : Statement .cond := by unfold Statement; decide +kernel

theorem pduCheck : Statement .pduCheck := by unfold Statement; decide +kernel

theorem condBlock : Statement .condBlock := by unfold Statement; decide +kernel

theorem keyDerive : Statement .keyDerive := by unfold Statement; decide +kernel

theorem decrypt : Statement .decrypt := by unfold Statement; decide +kernel

theorem validate : Statement .validate := by unfold Statement; decide +kernel

theorem crcInit : Statement .crcInit := by unfold Statement; decide +kernel

theorem crcByte : Statement .crcByte := by unfold Statement; decide +kernel

end Sys2Proof.Laws.Encoding
end

