-- ==== Sys2Proof/Laws/Window.lean ====
section
/-!
SUPPORT. The register window: the address map and its inverse, what a write does to the register it names, and what it
leaves.
-/

namespace Sys2Proof.Machine

variable (s : State)

/-- A register that is not reserved stands at the offset it is found at. -/
theorem offset_regAt (off : Byte) (h : regAt off ≠ .reserved) : (regAt off).offset = some off := by
  revert off
  decide +kernel

/-- Two offsets of one register are one offset. -/
theorem regAt_injective {a b : Byte} (h : regAt a = regAt b) (ha : regAt a ≠ .reserved) : a = b := by
  have ea := offset_regAt a ha
  have eb := offset_regAt b (h ▸ ha)
  rw [h, eb] at ea
  exact (Option.some.inj ea).symm

@[simp] theorem readWindow_eq (off : Byte) : readWindow s off = readRegister s (regAt off) := rfl

@[simp] theorem writeWindow_eq (off v : Byte) : writeWindow s off v = writeRegister s (regAt off) v := rfl

/-- What a register reads as depends on the block's own fields only. -/
@[simp] theorem readRegister_setPending (r : Reg) (v : List PortEvent) :
    readRegister (s.setPending v) r = readRegister s r := by cases r <;> rfl

@[simp] theorem readRegister_setReplies (r : Reg) (v : List Byte) :
    readRegister (s.setReplies v) r = readRegister s r := by cases r <;> rfl

@[simp] theorem readRegister_setDraws (r : Reg) (v : Nat) : readRegister (s.setDraws v) r = readRegister s r := by
  cases r <;> rfl

/-- The hidden KEY_STATE is read by no register (10_state.md R38). -/
@[simp] theorem readRegister_setKeyState (r : Reg) (v : KeyState) :
    readRegister (s.setKeyState v) r = readRegister s r := by cases r <;> rfl

@[simp] theorem readRegister_setNeedsReset (r : Reg) (v : Bool) :
    readRegister (s.setNeedsReset v) r = readRegister s r := by cases r <;> rfl

/-- Everything a plain register write can do: it is ignored, or it stores one field (KEY with its KEY_STATE). -/
theorem writeRegister_cases (r : Reg) (v : Byte) :
    (writeRegister s r v = s) ∨
    (r = .channel ∧ writeRegister s r v = s.setChannel (v.extractLsb' 0 2)) ∨
    (r = .pos ∧ writeRegister s r v = s.setPos (v.extractLsb' 0 5)) ∨
    (r = .din ∧ writeRegister s r v = s.setDin v) ∨
    (r = .pduType ∧ writeRegister s r v = s.setPduType v) ∨
    (∃ i, r = .key i ∧ writeRegister s r v = (s.setKey (s.key.set i v)).setKeyState .raw) ∨
    (∃ i, r = .block i ∧ writeRegister s r v = s.setBlock (s.block.set i v)) ∨
    (∃ c p, r = .mask c p ∧ writeRegister s r v = s.setMask (s.mask.set c ((s.mask[c]).set p v))) := by
  cases r <;> simp [writeRegister]

/-- A plain register write leaves what commands compute, and the model's own fields. -/
theorem writeRegister_frame (r : Reg) (v : Byte) :
    (writeRegister s r v).errcode = s.errcode ∧ (writeRegister s r v).dout = s.dout ∧
    (writeRegister s r v).valid = s.valid ∧ (writeRegister s r v).pduMatch = s.pduMatch ∧
    (writeRegister s r v).crcEmb = s.crcEmb ∧ (writeRegister s r v).crcCalc = s.crcCalc ∧
    (writeRegister s r v).crcAcc = s.crcAcc ∧ (writeRegister s r v).draws = s.draws ∧
    (writeRegister s r v).pending = s.pending ∧ (writeRegister s r v).replies = s.replies ∧
    (writeRegister s r v).needsReset = s.needsReset := by
  cases r <;> simp [writeRegister]

@[simp] theorem byteOf24_join (w : Word24) : (byteOf24 w 0 ++ byteOf24 w 1 ++ byteOf24 w 2 : BitVec 24) = w := by
  apply BitVec.eq_of_getLsbD_eq
  intro i hi
  simp only [byteOf24, BitVec.getLsbD_append, BitVec.getLsbD_extractLsb']
  interval_cases i <;> simp

end Sys2Proof.Machine
end

