-- ==== Sys2Proof/Laws/Step.lean ====
section
/-!
SUPPORT. What a step can do: one inversion lemma for each shared operation of the port, and one for each meaning that
has several cases.
-/

namespace Sys2Proof.Machine

variable (s : State)

/-! ### The step -/

theorem step_nil (h : s.pending = []) : step s = .next s := by
  simp [step, portStep, h]

theorem step_cons {e : PortEvent} {rest : List PortEvent} (h : s.pending = e :: rest) :
    step s = perform e (s.setPending rest) := by
  simp [step, portStep, h]

/-- Only offset 0x00 is CMD. -/
theorem regAt_eq_cmd (off : Byte) : regAt off = .cmd ↔ off = 0x00 := by
  revert off
  decide +kernel

theorem hostWrite_cmd (v : Byte) : hostWrite 0x00 v s = issueCommand v s :=
  if_pos ((regAt_eq_cmd 0x00).mpr rfl)

theorem hostWrite_register {off : Byte} (h : off ≠ 0x00) (v : Byte) :
    hostWrite off v s = .next (writeWindow s off v) :=
  if_neg fun e => h ((regAt_eq_cmd off).mp e)

theorem busAccess_host {size : Nat} (op : BusOp) (hn : s.needsReset = false) :
    busAccess .host size op s = if size = 1 then hostAccess op s else .refused (.accessSize size) := by
  simp [busAccess, hn]

/-- Everything an event can do when it ends in a next state. -/
theorem perform_next_cases {e : PortEvent} {t : State} (h : perform e s = .next t) :
    (∃ off, e = .access .host 1 (.read off) ∧ t = s.setReplies (s.replies ++ [readWindow s off])) ∨
    (∃ off v, e = .access .host 1 (.write off v) ∧ off ≠ 0x00 ∧ t = writeWindow s off v) ∨
    (∃ v, e = .access .host 1 (.write 0x00 v) ∧ issueCommand v s = .next t) ∨
    (e = .reset ∧ t = resetBlock s) ∨
    (∃ op, e = .resetDuring op ∧ t = resetBlock s) ∨
    (e = .powerGate ∧ t = s.setNeedsReset true) := by
  cases e with
  | access m size op =>
    cases m with
    | other => simp [perform, busAccess] at h
    | host =>
      simp only [perform, busAccess] at h
      split at h
      · cases h
      · split at h
        · rename_i hs
          subst hs
          cases op with
          | read off => exact .inl ⟨off, rfl, by simpa [hostAccess, hostRead, eq_comm] using h⟩
          | write off v =>
            by_cases h0 : off = 0x00
            · subst h0
              exact .inr (.inr (.inl ⟨v, rfl, (hostWrite_cmd s v).symm.trans h⟩))
            · refine .inr (.inl ⟨off, v, rfl, h0, ?_⟩)
              exact (Host.Outcome.next.inj ((hostWrite_register s h0 v).symm.trans h)).symm
        · cases h
  | reset => exact .inr (.inr (.inr (.inl ⟨rfl, by simpa [perform, eq_comm] using h⟩)))
  | resetDuring op => exact .inr (.inr (.inr (.inr (.inl ⟨op, rfl, by simpa [perform, eq_comm] using h⟩))))
  | powerGate => exact .inr (.inr (.inr (.inr (.inr ⟨rfl, by simpa [perform, eq_comm] using h⟩))))

/-- Everything a command byte can do: it runs the command it encodes, or it is IllegalCommand. -/
theorem issueCommand_cases (v : Byte) :
    (∃ i, decode v = .ok i ∧ issueCommand v s = exec i s) ∨
      (∃ r, decode v = .error r ∧ issueCommand v s = raise .illegalCommand s) := by
  unfold issueCommand
  cases h : decode v with
  | ok i => exact .inl ⟨i, rfl, rfl⟩
  | error r => exact .inr ⟨r, rfl, rfl⟩

/-! ### The arms and the meanings with one case. Prove what a field of the result is by `simp`, not by `rfl`: comparing the
whole states, which `rfl` tries first, unfolds the cipher. -/

theorem exec_nop : exec .nop s = execNop s := rfl

theorem exec_rev : exec .rev s = execRev s := rfl

theorem exec_cond : exec .cond s = execCond s := rfl

theorem exec_pduCheck : exec .pduCheck s = execPduCheck s := rfl

theorem exec_condBlock : exec .condBlock s = execCondBlock s := rfl

theorem exec_keyDerive : exec .keyDerive s = execKeyDerive s := rfl

theorem exec_decrypt : exec .decrypt s = execDecrypt s := rfl

theorem exec_validate : exec .validate s = execValidate s := rfl

theorem exec_crcInit : exec .crcInit s = execCrcInit s := rfl

theorem exec_crcByte : exec .crcByte s = execCrcByte s := rfl

theorem execNop_eq : execNop s = complete s := rfl

theorem execRev_eq : execRev s = complete (s.setDout (rev8 s.din)) := rfl

theorem execValidate_eq :
    execValidate s = complete ((((s.setBlock (unmask s.block)).setCrcEmb (embeddedCrc s.block)).setCrcCalc
      (crc24 (logicalBytes (unmask s.block)))).setValid
      (crcAgrees (embeddedCrc s.block) (crc24 (logicalBytes (unmask s.block))))) := rfl

theorem execCrcInit_eq : execCrcInit s = complete (s.setCrcAcc crcInitial) := rfl

theorem execCrcByte_eq : execCrcByte s = complete (s.setCrcAcc (crc24Step s.crcAcc s.din)) := rfl

/-! ### The meanings that have several cases -/

theorem execCond_cases :
    (∃ (c : Fin 3) (p : Fin 17), s.channel.toNat = c ∧ s.pos.toNat = p ∧
      execCond s = complete (s.setDout (conditionByte s.din (maskByte s c p)))) ∨
    (s.channel = 3 ∧ execCond s = raise .badChannel s) ∨
    (s.channel ≠ 3 ∧ 16 < s.pos.toNat ∧ execCond s = raise .badPosition s) := by
  obtain ⟨c, p, hc, hp, e⟩ | ⟨hc, e⟩ | ⟨hc, hp, e⟩ := selectedMaskByte_cases s
  · exact .inl ⟨c, p, hc, hp, by simp [execCond, e]⟩
  · exact .inr (.inl ⟨hc, by simp [execCond, e]⟩)
  · exact .inr (.inr ⟨hc, hp, by simp [execCond, e]⟩)

theorem execPduCheck_cases :
    (∃ c : Fin 3, s.channel.toNat = c ∧
      execPduCheck s = complete ((s.setDout (conditionByte s.din (maskByte s c 0))).setPduMatch
        (pduAgrees (conditionByte s.din (maskByte s c 0)) s.pduType))) ∨
    (s.channel = 3 ∧ execPduCheck s = raise .badChannel s) := by
  obtain ⟨c, hc, e⟩ | ⟨hc, e⟩ := selectedChannel_cases s
  · exact .inl ⟨c, hc, by simp [execPduCheck, e]⟩
  · exact .inr ⟨hc, by simp [execPduCheck, e]⟩

theorem execCondBlock_cases :
    (∃ c : Fin 3, s.channel.toNat = c ∧ execCondBlock s = complete (s.setBlock (conditionChunk s.block s.mask[c]))) ∨
    (s.channel = 3 ∧ execCondBlock s = raise .badChannel s) := by
  obtain ⟨c, hc, e⟩ | ⟨hc, e⟩ := selectedChannel_cases s
  · exact .inl ⟨c, hc, by simp [execCondBlock, e]⟩
  · exact .inr ⟨hc, by simp [execCondBlock, e]⟩

theorem execKeyDerive_cases :
    (s.keyState = .raw ∧ execKeyDerive s = complete ((s.setKey (deriveStart s.key)).setKeyState .start)) ∨
    (s.keyState ≠ .raw ∧ execKeyDerive s = complete ((drawKey s).setKeyState .spent)) := by
  cases h : s.keyState <;> simp [execKeyDerive, h]

theorem execDecrypt_cases :
    (s.keyState = .start ∧
      execDecrypt s = complete ((drawKey (s.setBlock (invCipher s.block s.key).1)).setKeyState .spent)) ∨
    (s.keyState ≠ .start ∧ execDecrypt s = complete ((drawKey (drawBlock s)).setKeyState .spent)) := by
  cases h : s.keyState <;> simp [execDecrypt, decryptBlock, h]

theorem drawKey_eq : drawKey s = (s.setKey (drawChunk s)).setDraws (s.draws + 16) := rfl

theorem drawBlock_eq : drawBlock s = (s.setBlock (drawChunk s)).setDraws (s.draws + 16) := rfl

end Sys2Proof.Machine
end

