-- ==== Sys2Proof/Tests/Slice0.lean ====
section
/-!
SUPPORT. Small tests: the words of the encoding, the vectors of 95_test_vectors.md (named in each comment), the checks of
WellFormed, and for each statement with hypotheses a witness that meets them.
-/

-- One theorem at a time: dozens of kernel evaluations at once ask for more threads than a check may start.
set_option Elab.async false

namespace Sys2Proof.Tests

open Sys2Proof.Machine Sys2Proof.Claims

/-- A field of the next state, if there is one. -/
def next {α : Type} (o : Host.Outcome State Fault Refusal) (f : State → α) : Option α :=
  match o with
  | .next t => some (f t)
  | .fault _ => none
  | .refused _ => none

/-- The reset state with one host transaction pending. -/
def withOp (op : BusOp) : State := { State.reset with pending := [.access .host 1 op] }

/-- The reset state with one event pending. -/
def withEvent (e : PortEvent) : State := { State.reset with pending := [e] }

/-- `MASK1` of 95_test_vectors.md, the made-up table of channel 1. -/
def mask1 : MaskTable := Vector.ofFn fun p : Fin 17 => BitVec.ofNat 8 (0x37 * (p.val + 1))

/-- The reset state with channel 1 selected and its table loaded. -/
def channel1 : State := { State.reset with channel := 1, mask := State.reset.mask.set 1 mask1 }

/-- 000102…0f, the key of V-KD-1. -/
def key0 : Chunk := Vector.ofFn fun i : Fin 16 => BitVec.ofNat 8 i.val

/-- 13111d7fe3944a17f307a78b4d2b30c5, its start key (V-KD-1). -/
def startKey0 : Chunk :=
  #v[0x13, 0x11, 0x1d, 0x7f, 0xe3, 0x94, 0x4a, 0x17, 0xf3, 0x07, 0xa7, 0x8b, 0x4d, 0x2b, 0x30, 0xc5]

/-- 2920db1b2573574149af166fc2046099, the block of V-VAL-1. -/
def maskedBlock : Chunk :=
  #v[0x29, 0x20, 0xdb, 0x1b, 0x25, 0x73, 0x57, 0x41, 0x49, 0xaf, 0x16, 0x6f, 0xc2, 0x04, 0x60, 0x99]

/-! ### Words written out from the encoding (30_encoding.md R71, R73): rsv 0000, then the opcode -/

theorem test_decode_nop : decode 0b00000000 = .ok .nop := by decide
theorem test_decode_rev : decode 0b00000001 = .ok .rev := by decide
theorem test_decode_cond : decode 0b00000010 = .ok .cond := by decide
theorem test_decode_pduCheck : decode 0b00000011 = .ok .pduCheck := by decide
theorem test_decode_condBlock : decode 0b00000100 = .ok .condBlock := by decide
theorem test_decode_keyDerive : decode 0b00000101 = .ok .keyDerive := by decide
theorem test_decode_decrypt : decode 0b00000110 = .ok .decrypt := by decide
theorem test_decode_validate : decode 0b00000111 = .ok .validate := by decide
theorem test_decode_crcInit : decode 0b00001000 = .ok .crcInit := by decide
theorem test_decode_crcByte : decode 0b00001001 = .ok .crcByte := by decide

/-- V-ILL-1, V-ILL-3: an undefined opcode, and reserved bits set above a defined one. -/
theorem test_decode_rejects :
    decode 0x0A = .error (.reservedOpcode 0x0A) ∧ decode 0x15 = .error (.reservedBits 0x15) := by decide

/-- An ill-formed byte for each check of WellFormed: 0x15 has a reserved bit set, 0x0A an undefined opcode. -/
theorem test_wellFormed_smoke :
    reservedBitsClear 0x15 = false ∧ opcodeDefined 0x15 = true ∧ reservedBitsClear 0x0A = true ∧
    opcodeDefined 0x0A = false ∧ commandByteOk 0x15 = false ∧ commandByteOk 0x0A = false ∧ commandByteOk 0x09 = true := by
  decide

/-- No two rows of the (mask, match) summary overlap (30_encoding.md R84). -/
theorem test_table_rows_disjoint :
    commandTable.Pairwise fun a b => a.pattern &&& b.mask ≠ b.pattern ∨ a.mask ≠ b.mask := by decide

/-- A table word placed at the port is the very next command, here KEY_DERIVE from reset (V-KD-3). -/
theorem test_withFetchWord_runs :
    next (step (State.reset.withFetchWord 8 5)) (fun t => (t.keyState, t.pending)) = some (.start, []) := by
  decide +kernel

/-! ### Conditioning (95_test_vectors.md 2.1) -/

/-- V-REV-8: CHANNEL and POS do not matter. -/
theorem test_rev : next (exec .rev { State.reset with din := 0x01, channel := 3, pos := 31 })
    (fun t => (t.dout, t.errcode)) = some (0x80, 0x00) := by decide +kernel

/-- V-COND-2 -/
theorem test_cond : next (exec .cond { channel1 with din := 0x01, pos := 5 })
    (fun t => (t.dout, t.errcode)) = some (0xCA, 0x00) := by decide +kernel

/-- V-COND-8, V-COND-7: BadChannel wins, and position 17 is bad. -/
theorem test_cond_errors :
    next (exec .cond { State.reset with channel := 3, pos := 20 }) (·.errcode) = some 0x02 ∧
    next (exec .cond { State.reset with pos := 17 }) (·.errcode) = some 0x03 := by decide +kernel

/-- V-PDU-1, V-PDU-2 -/
theorem test_pduCheck :
    next (exec .pduCheck { channel1 with din := 0xAE, pduType := 0x42 }) (fun t => (t.dout, t.pduMatch)) =
      some (0x42, true) ∧
    next (exec .pduCheck { channel1 with din := 0xEE, pduType := 0x42 }) (fun t => (t.dout, t.pduMatch)) =
      some (0x40, false) := by decide +kernel

/-- V-PDU-4: an error leaves PDU_MATCH. -/
theorem test_pduCheck_badChannel : next (exec .pduCheck { State.reset with channel := 3, pduMatch := true })
    (fun t => (t.errcode, t.pduMatch)) = some (0x02, true) := by decide +kernel

/-- V-CB-2 -/
theorem test_condBlock : next (exec .condBlock { channel1 with block :=
      #v[0x1a, 0xf1, 0x9d, 0x12, 0xa9, 0x87, 0x79, 0x31, 0x09, 0x42, 0x1e, 0x33, 0x54, 0xe4, 0x98, 0xb0] }) (·.block) =
    some #v[0x36, 0x2a, 0x65, 0x5b, 0xdf, 0x60, 0x26, 0x63, 0xb6, 0x1f, 0xec, 0x07, 0x28, 0x1e, 0x69, 0xaa] := by
  decide +kernel

/-! ### AES (95_test_vectors.md 2.2) -/

/-- V-GF-1, V-GF-2, V-GF-3, V-GF-4 -/
theorem test_field : xtime 0xAE = 0x47 ∧ gmul 0x57 0x83 = 0xC1 ∧ gmul 0x57 0x13 = 0xFE ∧ half 0x1B = 0x80 ∧
    half 0x8D = 0xCB ∧ ginv 0x53 = 0xCA ∧ ginv 0x00 = 0x00 := by decide +kernel

/-- V-KD-1 -/
theorem test_keyDerive : next (exec .keyDerive { State.reset with key := key0 }) (fun t => (t.key, t.keyState)) =
    some (startKey0, .start) := by decide +kernel

/-- V-KD-5: a second KEY_DERIVE is no error and spends the key. -/
theorem test_keyDerive_twice : next (exec .keyDerive { State.reset with key := startKey0, keyState := .start })
    (fun t => (t.keyState, t.errcode)) = some (.spent, 0x00) := by decide +kernel

/-- V-AES-1 -/
theorem test_decrypt : next (exec .decrypt { State.reset with key := startKey0, keyState := .start, block :=
      #v[0x69, 0xc4, 0xe0, 0xd8, 0x6a, 0x7b, 0x04, 0x30, 0xd8, 0xcd, 0xb7, 0x80, 0x70, 0xb4, 0xc5, 0x5a] })
    (fun t => (t.block, t.keyState)) =
    some (#v[0x00, 0x11, 0x22, 0x33, 0x44, 0x55, 0x66, 0x77, 0x88, 0x99, 0xaa, 0xbb, 0xcc, 0xdd, 0xee, 0xff], .spent) := by
  decide +kernel

/-- V-AES-7: DECRYPT of a raw key is no error. -/
theorem test_decrypt_misuse : next (exec .decrypt State.reset) (fun t => (t.keyState, t.errcode)) =
    some (.spent, 0x00) := by decide +kernel

/-! ### CRC-24 (95_test_vectors.md 2.3) -/

/-- V-VAL-1 -/
theorem test_validate : next (exec .validate { State.reset with block := maskedBlock })
    (fun t => (t.block, t.crcEmb, t.crcCalc, t.valid)) =
    some (#v[0x29, 0x20, 0xdb, 0xc0, 0x48, 0x45, 0x4c, 0x4c, 0x4f, 0x2c, 0x57, 0x4f, 0x52, 0x4c, 0x44, 0x0b],
      0x2920DB, 0x2920DB, true) := by decide +kernel

/-- V-VAL-5: the block is unmasked although the check fails. -/
theorem test_validate_fails : next (exec .validate { State.reset with block := maskedBlock.set 15 0x98 })
    (fun t => (t.block[15], t.crcCalc, t.valid, t.errcode)) = some (0x0A, 0xAF6C20, false, 0x00) := by decide +kernel

/-- V-CI-1 -/
theorem test_crcInit : next (exec .crcInit { State.reset with crcAcc := 0x21CF02 }) (·.crcAcc) = some 0xB704CE := by
  decide +kernel

/-- V-CB8-1, V-CRC-5 -/
theorem test_crcByte : next (exec .crcByte { State.reset with din := 0x31 }) (·.crcAcc) = some 0x2EBA48 ∧
    crc24Step 0x000000 0x80 = 0x3347A4 ∧ crc24Step 0xFFFFFF 0xFF = 0xFFFF00 := by decide +kernel

/-! ### Control, errors and the window (95_test_vectors.md 2.4) -/

/-- V-NOP-1 -/
theorem test_nop : next (exec .nop { State.reset with errcode := 0x01 }) (fun t => (t.errcode, readWindow t 0x01)) =
    some (0x00, 0x00) := by decide +kernel

/-- V-ILL-3: 0x15 is not KEY_DERIVE. -/
theorem test_illegal : next (step (withOp (.write 0x00 0x15))) (fun t => (t.errcode, t.keyState, readWindow t 0x01)) =
    some (0x01, .raw, 0x04) := by decide +kernel

/-- V-BUS-1: a write to STATUS is ignored. -/
theorem test_write_status : next (step { withOp (.write 0x01 0xFF) with valid := true }) (readWindow · 0x01) =
    some 0x01 := by decide +kernel

/-- V-BUS-2, V-BUS-3: CHANNEL and POS keep their low bits. -/
theorem test_write_operands : next (step (withOp (.write 0x03 0x07))) (readWindow · 0x03) = some 0x03 ∧
    next (step (withOp (.write 0x04 0xF1))) (readWindow · 0x04) = some 0x11 := by decide +kernel

/-- A host read returns its byte: CRC_ACC's most significant byte at reset (10_state.md R33). -/
theorem test_read : next (step (withOp (.read 0x10))) (·.replies) = some [0xB7] := by decide +kernel

/-- A write to one KEY byte makes the key fresh (10_state.md R39). -/
theorem test_write_key : next (step { withOp (.write 0x2F 0xAA) with keyState := .spent })
    (fun t => (t.keyState, t.key[15])) = some (.raw, 0xAA) := by decide +kernel

/-- V-BUS-4 -/
theorem test_read_zero : readWindow State.reset 0x00 = 0x00 ∧ readWindow State.reset 0x55 = 0x00 ∧
    readWindow State.reset 0xFF = 0x00 := by decide +kernel

/-- P5: chunk 0's raw bytes are what the transmitter makes of its logical bytes. -/
theorem test_airChunk : airChunk #v[0x00, 0xb5, 0x25, 0x55, 0x54, 0x68, 0x65, 0x20, 0x71, 0x75, 0x69, 0x63, 0x6b] key0 mask1 =
    #v[0xeb, 0xb8, 0x85, 0x65, 0x60, 0x5c, 0x15, 0x7b, 0xfa, 0x98, 0x33, 0xb6, 0xc0, 0xc5, 0x4e, 0xd8] := by
  decide +kernel

/-- 30_encoding.md R81: LDMASK writes 17 bytes from 0x60 on for channel 1. -/
theorem test_ldmask : (pseudoLdMask 1 mask1).length = 17 ∧ (pseudoLdMask 1 mask1).head? = some (lineW 0x60 0x37) ∧
    (pseudoLdMask 1 mask1).getLast? = some (lineW 0x70 0xA7) := by decide +kernel

/-- 30_encoding.md R81: RD24 reads the most significant byte first. -/
theorem test_rd24 : pseudoRd24 0x10 = [lineR 0x10, lineR 0x11, lineR 0x12] := by decide

/-- 10_state.md R22, R34, R35: KEY[i] is at 0x20 + i, BLOCK[i] at 0x30 + i. -/
theorem test_file_offsets : readWindow { State.reset with key := key0 } 0x2E = 0x0E ∧
    readWindow { State.reset with block := key0 } 0x31 = 0x01 := by decide +kernel

/-! ### Witnesses: a state and operands that meet each statement's hypotheses -/

theorem witness_reset_event : (withEvent .reset).pending = .reset :: [] ∧
    (withEvent (.resetDuring (.write 0x00 0x06))).pending = .resetDuring (.write 0x00 0x06) :: [] := by decide

theorem witness_host_read : HostNext (withOp (.read 0x02)) (.read 0x02) [] := by unfold HostNext; decide

theorem witness_host_two_reads :
    HostNext { State.reset with pending := [.access .host 1 (.read 0x10), .access .host 1 (.read 0x10)] } (.read 0x10)
      (.access .host 1 (.read 0x10) :: []) := by unfold HostNext; decide

/-- Writes to CMD, to the last offset before KEY, to KEY's two ends and to the first after it. -/
theorem witness_host_writes : ∀ off ∈ [(0x00 : Byte), 0x1F, 0x20, 0x2F, 0x30],
    HostNext (withOp (.write off 0x05)) (.write off 0x05) [] := by unfold HostNext; decide

/-- Writes of full bytes, to CHANNEL and to POS, and the offsets next to the full-byte ranges. -/
theorem witness_writable : (∀ off ∈ [(0x05 : Byte), 0x07, 0x20, 0x2F, 0x30, 0x3F, 0x40, 0x50, 0x60, 0x70, 0x80, 0x90], fullByteOffset off = true ∧
      HostNext (withOp (.write off 0xFF)) (.write off 0xFF) []) ∧
    (∀ off ∈ [(0x03 : Byte), 0x04], fullByteOffset off = false ∧ HostNext (withOp (.write off 0xFF)) (.write off 0xFF) []) ∧
    (∀ off ∈ [(0x06 : Byte), 0x1F, 0x51, 0x5F, 0x71, 0x7F, 0x91], fullByteOffset off = false) := by
  unfold HostNext; decide

/-- Reserved and read-only offsets at the ends of their ranges; no offset is of two kinds. -/
theorem witness_reserved : (∀ off ∈ [(0x0B : Byte), 0x0F, 0x13, 0x1F, 0x51, 0x5F, 0x71, 0x7F, 0x91, 0xFF],
      reservedOffset off = true ∧ HostNext (withOp (.write off 0x01)) (.write off 0x01) []) ∧
    (∀ off ∈ [(0x01 : Byte), 0x02, 0x06, 0x08, 0x0A, 0x0C, 0x0E, 0x10, 0x12],
      readOnlyOffset off = true ∧ HostNext (withOp (.write off 0x01)) (.write off 0x01) []) ∧
    ∀ off : Byte, ¬(reservedOffset off = true ∧ readOnlyOffset off = true) ∧
      ¬(reservedOffset off = true ∧ fullByteOffset off = true) := by
  unfold HostNext; decide +kernel

/-- A transaction that is no write to CMD, and a step after which ERRCODE differs. -/
theorem witness_errcode_changes : (∀ v : Byte, BusOp.write 0x03 0x07 ≠ .write 0x00 v) ∧
    HostNext (withOp (.write 0x03 0x07)) (.write 0x03 0x07) [] ∧
    next (step (withOp (.write 0x00 0x0A))) (fun t => decide (t.errcode ≠ (withOp (.write 0x00 0x0A)).errcode)) =
      some true := by unfold HostNext; decide +kernel

theorem witness_windows_agree : SameVisible State.reset { State.reset with keyState := .spent } := by
  unfold SameVisible; decide

theorem witness_sizes_and_masters : (withEvent (.access .host 2 (.read 0x20))).pending = .access .host 2 (.read 0x20) :: [] ∧
    (withEvent (.access .host 1 (.read 0x20))).pending = .access .host 1 (.read 0x20) :: [] ∧
    (withEvent (.access .other 1 (.read 0x20))).pending = .access .other 1 (.read 0x20) :: [] ∧
    State.reset.needsReset = false := by decide

theorem witness_power_gate : (withEvent .powerGate).pending = .powerGate :: [] ∧
    { withOp (.read 0x01) with needsReset := true }.needsReset = true ∧
    { withOp (.read 0x01) with needsReset := true }.pending = .access .host 1 (.read 0x01) :: [] ∧
    { withEvent .reset with needsReset := true }.pending = .reset :: [] := by decide

theorem witness_idle : State.reset.pending = [] := by decide

theorem witness_admitted : (PortEvent.access .host 1 (.write 0x00 0xFF)).admitted = true ∧ PortEvent.reset.admitted = true ∧
    PortEvent.powerGate.admitted = true ∧ (withEvent .powerGate).needsReset = false ∧
    { withEvent .reset with needsReset := true }.pending = .reset :: [] ∧
    ∀ m size op, PortEvent.reset ≠ .access m size op :=
  ⟨rfl, rfl, rfl, rfl, rfl, by simp⟩

/-- Command bytes on each side of each clause. -/
theorem witness_command_bytes : (0x10 : Byte).extractLsb' 4 4 ≠ 0 ∧
    ((0x0A : Byte).extractLsb' 4 4 = 0 ∧ 0xA ≤ ((0x0A : Byte).extractLsb' 0 4).toNat) ∧
    ((0x09 : Byte).extractLsb' 4 4 = 0 ∧ ((0x09 : Byte).extractLsb' 0 4).toNat < 0xA) := by decide

theorem witness_step_runs : HostNext (withOp (.write 0x00 0x05)) (.write 0x00 0x05) [] ∧ decode 0x05 = .ok .keyDerive := by
  unfold HostNext; decide

theorem witness_illegal : (∀ v ∈ [(0x0A : Byte), 0x0F, 0x10, 0xF0],
    HostNext (withOp (.write 0x00 v)) (.write 0x00 v) [] ∧
      (v.extractLsb' 4 4 ≠ 0 ∨ 0xA ≤ (v.extractLsb' 0 4).toNat)) := by unfold HostNext; decide

theorem witness_bad_channel : { State.reset with channel := 3 }.channel = 3 := by decide

theorem witness_priority : { State.reset with channel := 3, pos := 17 }.channel = 3 ∧
    16 < { State.reset with channel := 3, pos := 17 }.pos.toNat ∧ (2 : BitVec 2) ≠ 3 := by decide

/-- The last legal channel and position, the first position that is bad, and the channel that is. -/
theorem witness_cond : ({ State.reset with channel := 2, pos := 16 }.channel.toNat = (2 : Fin 3).val ∧
      { State.reset with channel := 2, pos := 16 }.pos.toNat = (16 : Fin 17).val) ∧
    (State.reset.channel.toNat = (0 : Fin 3).val ∧ State.reset.pos.toNat = (0 : Fin 17).val) ∧
    { State.reset with channel := 3 }.channel = 3 ∧
    ({ State.reset with channel := 2, pos := 17 }.channel ≠ 3 ∧ 16 < { State.reset with channel := 2, pos := 17 }.pos.toNat) := by
  decide

/-- Commands that draw, and the boundary on each side of it. -/
theorem witness_draws : drawsKey 0x05 State.reset = false ∧ drawsKey 0x05 { State.reset with keyState := .start } = true ∧
    drawsKey 0x06 State.reset = true ∧ drawsKey 0x07 State.reset = false ∧ drawsBlock 0x06 State.reset = true ∧
    drawsBlock 0x06 { State.reset with keyState := .start } = false ∧ drawsBlock 0x05 State.reset = false := by decide

/-- Each error code where it begins (60_exceptions.md R151, R160), and success beside it. -/
theorem witness_error_codes : errorCode 0x09 { State.reset with channel := 3, pos := 17 } = 0x00 ∧
    errorCode 0x0A { State.reset with channel := 3 } = 0x01 ∧ errorCode 0x10 State.reset = 0x01 ∧
    errorCode 0x02 { State.reset with channel := 3, pos := 17 } = 0x02 ∧ errorCode 0x04 { State.reset with channel := 3 } = 0x02 ∧
    errorCode 0x02 { State.reset with pos := 17 } = 0x03 ∧ errorCode 0x02 { State.reset with channel := 2, pos := 16 } = 0x00 ∧
    errorCode 0x03 { State.reset with pos := 17 } = 0x00 := by decide

theorem witness_key_states : State.reset.keyState = .raw ∧ { State.reset with keyState := .start }.keyState = .start ∧
    { State.reset with keyState := .start }.keyState ≠ .raw ∧ { State.reset with keyState := .spent }.keyState ≠ .start := by
  decide

/-- `exec` answers a next state, the premise of the frame, the ignored operands and the key discipline. -/
theorem witness_exec_next : exec .nop State.reset = .next (State.reset.setErrcode 0x00) ∧
    keyDisciplined .nop State.reset = true ∧ keyDisciplined .keyDerive State.reset = true ∧ Instr.nop ≠ .decrypt :=
  ⟨rfl, by decide, by decide, by decide⟩

theorem witness_frame_offsets : writesOffset .validate 0x32 = false ∧ writesOffset .validate 0x33 = true ∧
    writesOffset .decrypt 0x40 = false ∧ writesOffset .crcInit 0x13 = false ∧ writesOffset .nop 0x00 = false ∧
    writesOffset .rev 0x06 = true ∧ writesOffset .keyDerive 0x30 = false := by decide

/-- Steps to a next state for each kind of event of the KEY_STATE table. -/
theorem witness_steps : (∀ e ∈ [PortEvent.reset, .access .host 1 (.read 0x01), .access .host 1 (.write 0x20 0x00),
      .access .host 1 (.write 0x2F 0x00), .access .host 1 (.write 0x1F 0x00), .access .host 1 (.write 0x30 0x00),
      .access .host 1 (.write 0x00 0x05), .access .host 1 (.write 0x00 0x06), .access .host 1 (.write 0x00 0x07),
      .access .host 1 (.write 0x00 0x03), .access .host 1 (.write 0x00 0xFF)],
    (withEvent e).pending = e :: [] ∧ next (step (withEvent e)) (·.pending) = some []) := by decide +kernel

/-- PDU_CHECK without and with its error. -/
theorem witness_pduCheck_errcode : next (exec .pduCheck State.reset) (·.errcode) = some 0x00 ∧
    next (exec .pduCheck { State.reset with channel := 3 }) (·.errcode) = some 0x02 := by decide +kernel

theorem witness_errcode_legal : State.reset.errcodeLegal = true ∧ step State.reset = .next State.reset :=
  ⟨by decide, rfl⟩

theorem witness_transmitter_block : { channel1 with block := unconditionChunk key0 mask1 }.channel.toNat = (1 : Fin 3).val ∧
    { channel1 with block := unconditionChunk key0 mask1 }.block = unconditionChunk key0 channel1.mask[(1 : Fin 3)] := by
  decide +kernel

theorem witness_field : (0x01 : Byte) ≠ 0 := by decide

theorem witness_round_keys : (0 : Nat) ≤ 10 ∧ (10 : Nat) ≤ 10 := by decide

theorem witness_encrypted_block : { State.reset with block := aesEncrypt startKey0 State.reset.key }.keyState = .raw ∧
    { State.reset with block := aesEncrypt startKey0 State.reset.key }.block = aesEncrypt startKey0 State.reset.key :=
  ⟨rfl, rfl⟩

theorem witness_unmask_indices : (2 : Fin 16).val < 3 ∧ 3 ≤ (3 : Fin 16).val ∧ 3 ≤ (15 : Fin 16).val := by decide

theorem witness_built_chunk : { State.reset with block := buildChunk (Vector.replicate 13 0xA5) }.block =
    buildChunk (Vector.replicate 13 0xA5) := rfl

theorem witness_air_chunk :
    let s : State := { channel1 with key := key0, block := airChunk (Vector.replicate 13 0xA5) key0 mask1 }
    s.channel.toNat = (1 : Fin 3).val ∧ s.keyState = .raw ∧
      s.block = airChunk (Vector.replicate 13 0xA5) s.key s.mask[(1 : Fin 3)] :=
  ⟨by decide, rfl, rfl⟩

end Sys2Proof.Tests
end

section
/-!
Proofs of the statements on the state (10_state.md): the reserved offsets and bits, STATUS, the KEY_STATE table and the
two flags. First what commands and plain writes do to the fields these statements speak of, then the statements.
-/

namespace Sys2Proof.Machine

open Sys2Proof.Claims

/-! ### The decoder and the encoder -/

theorem decode_encode (i : Instr) : decode (encode i) = .ok i := by
  cases i <;> rfl

theorem eq_encode_of_decode {v : Byte} {i : Instr} (h : decode v = .ok i) : v = encode i := by
  revert v
  cases i <;> decide +kernel

variable {s t : State}

theorem issueCommand_encode (i : Instr) (s : State) : issueCommand (encode i) s = exec i s := by
  simp [issueCommand, decode_encode]

/-- Everything a command byte can do when it ends in a next state. -/
theorem issueCommand_next_cases {v : Byte} (h : issueCommand v s = .next t) :
    (∃ i, v = encode i ∧ exec i s = .next t) ∨ ((∀ i, v ≠ encode i) ∧ t = s.setErrcode 0x01) := by
  obtain ⟨i, hd, e⟩ | ⟨r, hd, e⟩ := issueCommand_cases s v
  · exact .inl ⟨i, eq_encode_of_decode hd, e ▸ h⟩
  · have hv : ∀ i, v ≠ encode i := by
      rintro i rfl
      simp [decode_encode] at hd
    exact .inr ⟨hv, by simpa [e] using h⟩

/-! ### The flags and STATUS -/

theorem crcAgrees_eq (e c : Word24) : crcAgrees e c = decide (e = c) := rfl

theorem pduAgrees_eq (d p : Byte) : pduAgrees d p = decide (d = p) := rfl

theorem status_getLsbD (s : State) (k : Nat) :
    (status s).getLsbD k =
      if k = 0 then s.valid else if k = 1 then s.pduMatch else if k = 2 then s.err else false := by
  simp only [status, BitVec.getLsbD_append, BitVec.getLsbD_ofBool]
  match k with
  | 0 | 1 | 2 | k + 3 => simp

/-! ### What a command can do -/

theorem exec_keyDerive_eq (s : State) : ∃ k n, exec .keyDerive s =
    complete (((s.setKey k).setDraws n).setKeyState (if s.keyState = .raw then .start else .spent)) := by
  obtain ⟨hk, e⟩ | ⟨hk, e⟩ := execKeyDerive_cases s
  · exact ⟨deriveStart s.key, s.draws, by rw [exec_keyDerive, e, if_pos hk]; rfl⟩
  · exact ⟨drawChunk s, s.draws + 16, by rw [exec_keyDerive, e, if_neg hk, drawKey_eq]⟩

theorem exec_decrypt_eq (s : State) :
    ∃ b k n, exec .decrypt s = complete ((((s.setBlock b).setKey k).setDraws n).setKeyState .spent) := by
  obtain ⟨-, e⟩ | ⟨-, e⟩ := execDecrypt_cases s
  · exact ⟨_, _, _, by rw [exec_decrypt, e, drawKey_eq]⟩
  · exact ⟨drawChunk s, _, _, by rw [exec_decrypt, e, drawKey_eq, drawBlock_eq]; rfl⟩

/-- Everything a command can do when it ends in a next state: which fields it writes. The flags and KEY_STATE get the
value the rules give them; the other values, and when an operand is bad, are left to the laws of the command itself. -/
theorem exec_next_cases {i : Instr} (h : exec i s = .next t) :
    (i ∈ [.cond, .pduCheck, .condBlock] ∧ ∃ e : CommandError, t = s.setErrcode e.code) ∨
    (i = .nop ∧ t = s.setErrcode 0x00) ∨
    (i ∈ [.rev, .cond] ∧ ∃ d, t = (s.setDout d).setErrcode 0x00) ∨
    (i = .pduCheck ∧ ∃ d, t = ((s.setDout d).setPduMatch (pduAgrees d s.pduType)).setErrcode 0x00) ∨
    (i = .condBlock ∧ ∃ b, t = (s.setBlock b).setErrcode 0x00) ∨
    (i = .keyDerive ∧ ∃ k n, t =
      (((s.setKey k).setDraws n).setKeyState (if s.keyState = .raw then .start else .spent)).setErrcode 0x00) ∨
    (i = .decrypt ∧ ∃ b k n, t = ((((s.setBlock b).setKey k).setDraws n).setKeyState .spent).setErrcode 0x00) ∨
    (i = .validate ∧
      ∃ b e c, t = ((((s.setBlock b).setCrcEmb e).setCrcCalc c).setValid (crcAgrees e c)).setErrcode 0x00) ∨
    (i ∈ [.crcInit, .crcByte] ∧ ∃ a, t = (s.setCrcAcc a).setErrcode 0x00) := by
  cases i with
  | nop => simpa [exec_nop, execNop_eq] using h
  | rev => exact .inr (.inr (.inl ⟨by simp, _, by simpa [exec_rev, execRev_eq] using h⟩))
  | cond =>
    rw [exec_cond] at h
    obtain ⟨c, p, -, -, e⟩ | ⟨-, e⟩ | ⟨-, -, e⟩ := execCond_cases s <;> rw [e] at h
    · exact .inr (.inr (.inl ⟨by simp, _, (complete_eq_next _ _).mp h⟩))
    · exact .inl ⟨by simp, _, (raise_eq_next _ _ _).mp h⟩
    · exact .inl ⟨by simp, _, (raise_eq_next _ _ _).mp h⟩
  | pduCheck =>
    rw [exec_pduCheck] at h
    obtain ⟨c, -, e⟩ | ⟨-, e⟩ := execPduCheck_cases s <;> rw [e] at h
    · exact .inr (.inr (.inr (.inl ⟨rfl, _, (complete_eq_next _ _).mp h⟩)))
    · exact .inl ⟨by simp, _, (raise_eq_next _ _ _).mp h⟩
  | condBlock =>
    rw [exec_condBlock] at h
    obtain ⟨c, -, e⟩ | ⟨-, e⟩ := execCondBlock_cases s <;> rw [e] at h
    · exact .inr (.inr (.inr (.inr (.inl ⟨rfl, _, (complete_eq_next _ _).mp h⟩))))
    · exact .inl ⟨by simp, _, (raise_eq_next _ _ _).mp h⟩
  | keyDerive =>
    obtain ⟨k, n, e⟩ := exec_keyDerive_eq s
    have ht := (complete_eq_next _ _).mp (e ▸ h)
    exact .inr (.inr (.inr (.inr (.inr (.inl ⟨rfl, k, n, ht⟩)))))
  | decrypt =>
    obtain ⟨b, k, n, e⟩ := exec_decrypt_eq s
    have ht := (complete_eq_next _ _).mp (e ▸ h)
    exact .inr (.inr (.inr (.inr (.inr (.inr (.inl ⟨rfl, b, k, n, ht⟩))))))
  | validate =>
    rw [exec_validate, execValidate_eq] at h
    have ht := (complete_eq_next _ _).mp h
    exact .inr (.inr (.inr (.inr (.inr (.inr (.inr (.inl ⟨rfl, _, _, _, ht⟩)))))))
  | crcInit =>
    rw [exec_crcInit, execCrcInit_eq] at h
    have ht := (complete_eq_next _ _).mp h
    exact .inr (.inr (.inr (.inr (.inr (.inr (.inr (.inr ⟨by simp, _, ht⟩)))))))
  | crcByte =>
    rw [exec_crcByte, execCrcByte_eq] at h
    have ht := (complete_eq_next _ _).mp h
    exact .inr (.inr (.inr (.inr (.inr (.inr (.inr (.inr ⟨by simp, _, ht⟩)))))))

/-! ### KEY_STATE and the flags after a command -/

theorem exec_keyState_frame {i : Instr} (h : exec i s = .next t) (hk : i ≠ .keyDerive) (hd : i ≠ .decrypt) :
    t.keyState = s.keyState := by
  obtain ⟨-, e, rfl⟩ | ⟨-, rfl⟩ | ⟨-, d, rfl⟩ | ⟨-, d, rfl⟩ | ⟨-, b, rfl⟩ | ⟨rfl, -⟩ | ⟨rfl, -⟩ | ⟨-, b, e, c, rfl⟩ |
    ⟨-, a, rfl⟩ := exec_next_cases h <;> simp at hk hd ⊢

theorem exec_valid_frame {i : Instr} (h : exec i s = .next t) (hi : i ≠ .validate) : t.valid = s.valid := by
  obtain ⟨-, e, rfl⟩ | ⟨-, rfl⟩ | ⟨-, d, rfl⟩ | ⟨-, d, rfl⟩ | ⟨-, b, rfl⟩ | ⟨-, k, n, rfl⟩ | ⟨-, b, k, n, rfl⟩ |
    ⟨rfl, -⟩ | ⟨-, a, rfl⟩ := exec_next_cases h <;> simp at hi ⊢

theorem exec_pduMatch_frame {i : Instr} (h : exec i s = .next t) (hi : i ≠ .pduCheck ∨ t.errcode ≠ 0x00) :
    t.pduMatch = s.pduMatch := by
  obtain ⟨-, e, rfl⟩ | ⟨-, rfl⟩ | ⟨-, d, rfl⟩ | ⟨rfl, d, rfl⟩ | ⟨-, b, rfl⟩ | ⟨-, k, n, rfl⟩ | ⟨-, b, k, n, rfl⟩ |
    ⟨-, b, e, c, rfl⟩ | ⟨-, a, rfl⟩ := exec_next_cases h <;> simp at hi ⊢

theorem exec_keyDerive_keyState (h : exec .keyDerive s = .next t) :
    t.keyState = if s.keyState = .raw then .start else .spent := by
  obtain ⟨k, n, e⟩ := exec_keyDerive_eq s
  obtain rfl := (complete_eq_next _ _).mp (e ▸ h)
  simp

theorem exec_decrypt_keyState (h : exec .decrypt s = .next t) : t.keyState = .spent := by
  obtain ⟨b, k, n, e⟩ := exec_decrypt_eq s
  obtain rfl := (complete_eq_next _ _).mp (e ▸ h)
  simp

/-! ### The same through a command byte -/

theorem issueCommand_keyState_frame {v : Byte} (h : issueCommand v s = .next t) (hk : v ≠ 0x05) (hd : v ≠ 0x06) :
    t.keyState = s.keyState := by
  obtain ⟨i, rfl, hi⟩ | ⟨-, rfl⟩ := issueCommand_next_cases h
  · exact exec_keyState_frame hi (by rintro rfl; exact hk rfl) (by rintro rfl; exact hd rfl)
  · simp

theorem issueCommand_valid_frame {v : Byte} (h : issueCommand v s = .next t) (hv : v ≠ 0x07) : t.valid = s.valid := by
  obtain ⟨i, rfl, hi⟩ | ⟨-, rfl⟩ := issueCommand_next_cases h
  · exact exec_valid_frame hi (by rintro rfl; exact hv rfl)
  · simp

theorem issueCommand_pduMatch_frame {v : Byte} (h : issueCommand v s = .next t) (hv : v ≠ 0x03 ∨ t.errcode ≠ 0x00) :
    t.pduMatch = s.pduMatch := by
  obtain ⟨i, rfl, hi⟩ | ⟨-, rfl⟩ := issueCommand_next_cases h
  · exact exec_pduMatch_frame hi (hv.imp_left (by rintro hne rfl; exact hne rfl))
  · simp

/-! ### Reserved bits (10_state.md R37) -/

theorem channel_reservedBits (c : BitVec 2) : c.setWidth 8 &&& (0xFC : Byte) = 0 := by
  revert c
  decide

theorem pos_reservedBits (p : BitVec 5) : p.setWidth 8 &&& (0xE0 : Byte) = 0 := by
  revert p
  decide

theorem status_reservedBits (s : State) : status s &&& 0xF8 = 0 := by
  unfold status
  cases s.err <;> cases s.pduMatch <;> cases s.valid <;> rfl

theorem channel_write_low_bits (v : Byte) : v.extractLsb' 0 2 = (v &&& 0x03).extractLsb' 0 2 := by
  revert v
  decide +kernel

theorem pos_write_low_bits (v : Byte) : v.extractLsb' 0 5 = (v &&& 0x1F).extractLsb' 0 5 := by
  revert v
  decide +kernel

/-! ### Host transactions and the registers they name -/

theorem step_of_hostNext {op : BusOp} {rest : List PortEvent} (h : HostNext s op rest) :
    step s = hostAccess op (s.setPending rest) := by
  obtain ⟨hp, hn⟩ := h
  rw [step_cons s hp]
  exact (busAccess_host (s.setPending rest) op hn).trans (if_pos rfl)

theorem reservedOffset_iff (off : Byte) : reservedOffset off = true ↔ regAt off = .reserved := by
  revert off
  decide +kernel

theorem exists_regAt_eq_key_iff (off : Byte) :
    (∃ i, regAt off = .key i) ↔ 0x20 ≤ off.toNat ∧ off.toNat ≤ 0x2F := by
  revert off
  decide +kernel

theorem writeWindow_key_keyState {off : Byte} (h : 0x20 ≤ off.toNat ∧ off.toNat ≤ 0x2F) (s : State) (v : Byte) :
    (writeWindow s off v).keyState = .raw := by
  obtain ⟨i, hi⟩ := (exists_regAt_eq_key_iff off).mpr h
  simp [hi, writeRegister]

theorem writeWindow_keyState_frame {off : Byte} (h : ¬(0x20 ≤ off.toNat ∧ off.toNat ≤ 0x2F)) (s : State) (v : Byte) :
    (writeWindow s off v).keyState = s.keyState := by
  rw [← exists_regAt_eq_key_iff] at h
  rw [writeWindow_eq]
  obtain e | ⟨-, e⟩ | ⟨-, e⟩ | ⟨-, e⟩ | ⟨-, e⟩ | ⟨i, hi, -⟩ | ⟨i, -, e⟩ | ⟨c, p, -, e⟩ :=
    writeRegister_cases s (regAt off) v
  case inr.inr.inr.inr.inr.inl => exact absurd ⟨i, hi⟩ h
  all_goals simp [e]

/-- A transaction that is no command leaves both flags. -/
theorem step_keeps_flags_or_issues {e : PortEvent} {rest : List PortEvent} (hp : s.pending = e :: rest)
    (h : step s = .next t) (hr : e ≠ .reset) (hd : ∀ op, e ≠ .resetDuring op) (hg : e ≠ .powerGate) :
    (t.valid = s.valid ∧ t.pduMatch = s.pduMatch) ∨
      ∃ v, e = .access .host 1 (.write 0x00 v) ∧ issueCommand v (s.setPending rest) = .next t := by
  rw [step_cons s hp] at h
  obtain ⟨off, -, rfl⟩ | ⟨off, v, -, -, rfl⟩ | hv | ⟨he, -⟩ | ⟨op, he, -⟩ | ⟨he, -⟩ := perform_next_cases _ h
  · simp
  · obtain ⟨-, -, hvalid, hmatch, -⟩ := writeRegister_frame (s.setPending rest) (regAt off) v
    exact .inl ⟨hvalid, hmatch⟩
  · exact .inr hv
  · exact absurd he hr
  · exact absurd he (hd op)
  · exact absurd he hg

/-! ### The statements -/

/-- Settles O38: one case for each row of the table, by what a command and a plain write do to KEY_STATE. -/
theorem keyStateFollowsItsTable : Obligations.KeyStateFollowsItsTable := by
  unfold Obligations.KeyStateFollowsItsTable
  intro s t rest h
  refine ⟨fun hp => ?_, fun off hn => ?_, fun off v hn => ?_⟩
  · rw [step_cons s hp] at h
    obtain rfl := Host.Outcome.next.inj h
    simp
  · rw [step_of_hostNext hn] at h
    obtain rfl := Host.Outcome.next.inj h
    simp
  · replace h : hostWrite off v (s.setPending rest) = .next t := (step_of_hostNext hn).symm.trans h
    have command (h0 : off = 0x00) : issueCommand v (s.setPending rest) = .next t := by
      rwa [h0, hostWrite_cmd] at h
    have register (h0 : off ≠ 0x00) : writeWindow (s.setPending rest) off v = t :=
      Host.Outcome.next.inj ((hostWrite_register _ h0 v).symm.trans h)
    refine ⟨fun hlo hhi => ?_, fun h0 hv => ?_, fun h0 hv => ?_, fun h0 hk hd => ?_, fun h0 hoff => ?_⟩
    · rw [← register (by rintro rfl; simp at hlo)]
      exact writeWindow_key_keyState ⟨hlo, hhi⟩ _ v
    · subst hv
      have hexec := (issueCommand_encode .keyDerive (s.setPending rest)).symm.trans (command h0)
      exact exec_keyDerive_keyState (s := s.setPending rest) hexec
    · subst hv
      have hexec := (issueCommand_encode .decrypt (s.setPending rest)).symm.trans (command h0)
      exact exec_decrypt_keyState hexec
    · simpa using issueCommand_keyState_frame (command h0) hk hd
    · rw [← register h0]
      exact writeWindow_keyState_frame hoff _ v

/-- Settles O39: only a command touches a flag, and of the commands only the flag's own. -/
theorem flagsChangeOnlyByTheirCommand : Obligations.FlagsChangeOnlyByTheirCommand := by
  unfold Obligations.FlagsChangeOnlyByTheirCommand
  refine ⟨rfl, rfl, fun s => ?_, fun s t h he => ?_, fun s t e rest hp h hr hd hg => ?_⟩
  · exact ⟨_, (execValidate_eq s).trans (complete_eq _), by rw [← crcAgrees_eq]; simp⟩
  · obtain ⟨-, e, rfl⟩ | ⟨⟨⟩, -⟩ | ⟨hi, -⟩ | ⟨-, d, rfl⟩ | ⟨⟨⟩, -⟩ | ⟨⟨⟩, -⟩ | ⟨⟨⟩, -⟩ | ⟨⟨⟩, -⟩ | ⟨hi, -⟩ :=
      exec_next_cases h
    · exact absurd he (code_ne_zero e)
    · simp at hi
    · rw [← pduAgrees_eq]
      simp
    · simp at hi
  · obtain ⟨hvalid, hmatch⟩ | ⟨v, rfl, hv⟩ := step_keeps_flags_or_issues hp h hr hd hg
    · exact ⟨fun _ => hvalid, fun _ => hmatch⟩
    · refine ⟨fun hne => ?_, fun hne => ?_⟩
      · have hv7 : v ≠ 0x07 := by rintro rfl; exact hne rfl
        simpa using issueCommand_valid_frame hv hv7
      · have hv3 : v ≠ 0x03 ∨ t.errcode ≠ 0x00 := hne.imp_left (by rintro hne rfl; exact hne rfl)
        simpa using issueCommand_pduMatch_frame hv hv3

/-- Settles O6: the reserved offsets are those where the address map has `reserved`. -/
theorem reservedOffsetsAndBitsReadZero : Obligations.ReservedOffsetsAndBitsReadZero := by
  unfold Obligations.ReservedOffsetsAndBitsReadZero
  refine ⟨fun s off hoff => ?_, fun s => ⟨?_, ?_, ?_⟩, fun s off v rest hn hoff => ?_, fun s v => ⟨?_, ?_⟩⟩
  · rw [readWindow_eq, (reservedOffset_iff off).mp hoff, readRegister]
  · exact channel_reservedBits s.channel
  · exact pos_reservedBits s.pos
  · exact status_reservedBits s
  · have h0 : off ≠ 0x00 := by
      rintro rfl
      simp [reservedOffset] at hoff
    have hw : writeWindow (s.setPending rest) off v = s.setPending rest := by
      obtain hoff | rfl := hoff
      · rw [writeWindow_eq, (reservedOffset_iff off).mp hoff, writeRegister]
      · rfl
    calc step s = hostWrite off v (s.setPending rest) := step_of_hostNext hn
      _ = .next (writeWindow (s.setPending rest) off v) := hostWrite_register _ h0 v
      _ = .next (s.setPending rest) := by rw [hw]
  · exact congrArg s.setChannel (channel_write_low_bits v)
  · exact congrArg s.setPos (pos_write_low_bits v)

/-- Settles O8: the STATUS byte is read bit by bit. -/
theorem statusErrIsAViewOfErrcode : Obligations.StatusErrIsAViewOfErrcode := by
  unfold Obligations.StatusErrIsAViewOfErrcode
  have hstatus (s : State) : readWindow s 0x01 = status s := rfl
  refine ⟨fun s => ?_, rfl⟩
  rw [hstatus]
  refine ⟨status_getLsbD s 2, status_getLsbD s 0, status_getLsbD s 1, fun k hk => ?_⟩
  have h0 : k ≠ 0 := by omega
  have h1 : k ≠ 1 := by omega
  have h2 : k ≠ 2 := by omega
  rw [status_getLsbD, if_neg h0, if_neg h1, if_neg h2]

end Sys2Proof.Machine
end

section
/-!
Proofs of the statements on memory access (20_memory.md): the byte order of the 24-bit registers, and that a host read or
write acts on its own byte alone. First what each setter leaves of the other registers, from which a write to one offset
leaves what every other offset reads as.
-/

namespace Sys2Proof.Machine

open Sys2Proof.Claims

variable {s : State} {r : Reg} {off : Byte} {v : Byte} {rest : List PortEvent}

/-! ### A setter changes what its own register reads as, and no other -/

theorem readRegister_setChannel (h : r ≠ .channel) (v : BitVec 2) :
    readRegister (s.setChannel v) r = readRegister s r := by
  cases r with
  | channel => exact absurd rfl h
  | _ => rfl

theorem readRegister_setPos (h : r ≠ .pos) (v : BitVec 5) : readRegister (s.setPos v) r = readRegister s r := by
  cases r with
  | pos => exact absurd rfl h
  | _ => rfl

theorem readRegister_setDin (h : r ≠ .din) (v : Byte) : readRegister (s.setDin v) r = readRegister s r := by
  cases r with
  | din => exact absurd rfl h
  | _ => rfl

theorem readRegister_setPduType (h : r ≠ .pduType) (v : Byte) :
    readRegister (s.setPduType v) r = readRegister s r := by
  cases r with
  | pduType => exact absurd rfl h
  | _ => rfl

theorem readRegister_setKey_set {i : Fin 16} (h : r ≠ .key i) (v : Byte) :
    readRegister (s.setKey (s.key.set i v)) r = readRegister s r := by
  cases r with
  | key j =>
    have hij : i.val ≠ j.val := fun e => h (by rw [Fin.ext e])
    exact Vector.getElem_set_ne i.isLt j.isLt hij
  | _ => rfl

theorem readRegister_setBlock_set {i : Fin 16} (h : r ≠ .block i) (v : Byte) :
    readRegister (s.setBlock (s.block.set i v)) r = readRegister s r := by
  cases r with
  | block j =>
    have hij : i.val ≠ j.val := fun e => h (by rw [Fin.ext e])
    exact Vector.getElem_set_ne i.isLt j.isLt hij
  | _ => rfl

/-- A byte of another channel's table stands in another row, and one of the same table in another place of the row. -/
theorem readRegister_setMask_set {c : Fin 3} {p : Fin 17} (h : r ≠ .mask c p) (v : Byte) :
    readRegister (s.setMask (s.mask.set c ((s.mask[c]).set p v))) r = readRegister s r := by
  cases r with
  | mask d q =>
    show ((s.mask.set c ((s.mask[c]).set p v))[d])[q] = (s.mask[d])[q]
    by_cases hcd : c = d
    · subst hcd
      have hpq : p.val ≠ q.val := fun e => h (by rw [Fin.ext e])
      simp [Vector.getElem_set_ne, hpq]
    · have hcd' : c.val ≠ d.val := fun e => hcd (Fin.ext e)
      simp [Vector.getElem_set_ne, hcd']
  | _ => rfl

/-- What a plain write stores is read in the register written, and in no other. -/
theorem readRegister_writeRegister_of_ne {r' : Reg} (h : r' ≠ r) (s : State) (v : Byte) :
    readRegister (writeRegister s r v) r' = readRegister s r' := by
  obtain e | ⟨rfl, e⟩ | ⟨rfl, e⟩ | ⟨rfl, e⟩ | ⟨rfl, e⟩ | ⟨i, rfl, e⟩ | ⟨i, rfl, e⟩ | ⟨c, p, rfl, e⟩ :=
    writeRegister_cases s r v <;> rw [e]
  · exact readRegister_setChannel h _
  · exact readRegister_setPos h _
  · exact readRegister_setDin h _
  · exact readRegister_setPduType h _
  · rw [readRegister_setKeyState]
    exact readRegister_setKey_set h _
  · exact readRegister_setBlock_set h _
  · exact readRegister_setMask_set h _

/-- Two offsets share a register only where it is `reserved`, and there a write is ignored. -/
theorem readWindow_writeWindow_of_ne {off' : Byte} (h : off' ≠ off) (s : State) (v : Byte) :
    readWindow (writeWindow s off v) off' = readWindow s off' := by
  rw [readWindow_eq, readWindow_eq, writeWindow_eq]
  by_cases hr : regAt off = .reserved
  · rw [hr, writeRegister]
  · exact readRegister_writeRegister_of_ne (fun e => h (regAt_injective e.symm hr).symm) s v

/-! ### A step that reads, and a step that writes a register -/

theorem step_hostRead (h : HostNext s (.read off) rest) :
    step s = .next ((s.setPending rest).setReplies (s.replies ++ [readWindow s off])) := by
  rw [step_of_hostNext h, hostAccess, hostRead]
  simp

theorem step_hostWrite_register (h : HostNext s (.write off v) rest) (h0 : off ≠ 0x00) :
    step s = .next (writeWindow (s.setPending rest) off v) :=
  (step_of_hostNext h).trans (hostWrite_register _ h0 v)

/-! ### The statements -/

/-- Settles O4: a read is `setReplies`, a write to CMD is `issueCommand`, and any other write is `writeWindow`, which
stores one register. -/
theorem readsAndWritesActOnTheirOwnByte : Obligations.ReadsAndWritesActOnTheirOwnByte := by
  unfold Obligations.ReadsAndWritesActOnTheirOwnByte
  refine fun s off rest => ⟨step_hostRead, fun rest' hn hrest => ?_, fun v hn h0 => ?_, fun v hn h0 => ?_⟩
  · have hnext : HostNext ((s.setPending rest).setReplies (s.replies ++ [readWindow s off])) (.read off) rest' :=
      ⟨hrest, hn.2⟩
    have hsame (l : List Byte) : readWindow ((s.setPending rest).setReplies l) off = readWindow s off := by simp
    refine ⟨_, step_hostRead hn, (step_hostRead hnext).trans ?_⟩
    rw [hsame]
    simp [State.setPending, State.setReplies]
  · subst h0
    exact (step_of_hostNext hn).trans (hostWrite_cmd _ v)
  · obtain ⟨-, -, -, -, -, -, -, hdraws, hpending, hreplies, hreset⟩ :=
      writeRegister_frame (s.setPending rest) (regAt off) v
    refine ⟨_, step_hostWrite_register hn h0, fun off' hne => ?_, ?_, hpending, hreplies, hdraws, hreset.trans hn.2⟩
    · rw [readWindow_writeWindow_of_ne hne, readWindow_eq, readRegister_setPending, readWindow_eq]
    · split
      next hkey => exact writeWindow_key_keyState hkey _ v
      next hkey => exact writeWindow_keyState_frame hkey _ v

/-- Settles O9: the three offsets hold bytes 0, 1 and 2 of the register, the most significant first. -/
theorem crcRegistersReadBigEndian : Obligations.CrcRegistersReadBigEndian := by
  unfold Obligations.CrcRegistersReadBigEndian
  exact fun s => ⟨byteOf24_join s.crcEmb, byteOf24_join s.crcCalc, byteOf24_join s.crcAcc⟩

end Sys2Proof.Machine
end

section
/-!
Proofs of the statements on the encoding (30_encoding.md): the opcode map, and what each of the 256 command bytes does.
First the two fields of a byte as numbers and one equation for each outcome of the decoder, then the statements.
-/

namespace Sys2Proof.Machine

variable {v : Byte} {i : Instr}

/-! ### The fields of a command byte -/

theorem rsvField_toNat (v : Byte) : (rsvField v).toNat = v.toNat / 16 := by
  have hv := v.isLt
  rw [rsvField, BitVec.extractLsb'_toNat, Nat.shiftRight_eq_div_pow]
  omega

theorem opField_toNat (v : Byte) : (opField v).toNat = v.toNat % 16 := BitVec.extractLsb'_toNat ..

theorem rsvField_eq_zero_iff (v : Byte) : rsvField v = 0 ↔ v.toNat ≤ 0x0F := by
  rw [← BitVec.toNat_inj, rsvField_toNat, BitVec.ofNat_eq_ofNat, BitVec.toNat_zero]
  omega

/-! ### The opcode map -/

/-- The commands of the opcode map (30_encoding.md R73), each at its opcode. -/
def opcodeMap : List Instr :=
  [.nop, .rev, .cond, .pduCheck, .condBlock, .keyDerive, .decrypt, .validate, .crcInit, .crcByte]

theorem opcodeCommand_eq_getElem? (op : BitVec 4) : opcodeCommand op = opcodeMap[op.toNat]? := by
  revert op
  decide

theorem opcodeCommand_eq_none {op : BitVec 4} (h : 0xA ≤ op.toNat) : opcodeCommand op = none :=
  (opcodeCommand_eq_getElem? op).trans (List.getElem?_eq_none h)

/-! ### The three outcomes of the decoder -/

theorem decode_of_rsvField_ne_zero (h : rsvField v ≠ 0) : decode v = .error (.reservedBits v) := if_neg h

theorem decode_of_opcodeCommand_none (hr : rsvField v = 0) (ho : opcodeCommand (opField v) = none) :
    decode v = .error (.reservedOpcode v) := by
  rw [decode, if_pos hr, ho]

theorem decode_of_opcodeCommand_some (hr : rsvField v = 0) (ho : opcodeCommand (opField v) = some i) :
    decode v = .ok i := by
  rw [decode, if_pos hr, ho]

theorem issueCommand_of_decode_ok (h : decode v = .ok i) (s : State) : issueCommand v s = exec i s := by
  rw [issueCommand, h]

theorem issueCommand_of_decode_error {r : DecodeReject} (h : decode v = .error r) (s : State) :
    issueCommand v s = .next (s.setErrcode 0x01) := by
  rw [issueCommand, h, raise_eq, code_illegalCommand]

/-! ### The statements -/

/-- Settles O15: each of the ten bytes is its command's encoding, and 0x0A to 0x0F have `rsv` 0 and an opcode past the
map. -/
theorem commandBytesAreTheOpcodeMap : Obligations.CommandBytesAreTheOpcodeMap := by
  unfold Obligations.CommandBytesAreTheOpcodeMap
  refine ⟨decode_encode .nop, decode_encode .rev, decode_encode .cond, decode_encode .pduCheck,
    decode_encode .condBlock, decode_encode .keyDerive, decode_encode .decrypt, decode_encode .validate,
    decode_encode .crcInit, decode_encode .crcByte, fun v hlo hhi => ?_⟩
  have hop : 0xA ≤ (opField v).toNat := by
    rw [opField_toNat]
    omega
  exact decode_of_opcodeCommand_none ((rsvField_eq_zero_iff v).mpr hhi) (opcodeCommand_eq_none hop)

/-- Settles O17: the three clauses are the three outcomes of the decoder. -/
theorem commandByteRunsItsCommandOrIsIllegal : Obligations.CommandByteRunsItsCommandOrIsIllegal := by
  unfold Obligations.CommandByteRunsItsCommandOrIsIllegal
  refine fun v s => ⟨fun hrsv => ?_, fun hrsv hop => ?_, fun hrsv hop => ?_⟩
  · exact issueCommand_of_decode_error (decode_of_rsvField_ne_zero hrsv) s
  · exact issueCommand_of_decode_error (decode_of_opcodeCommand_none hrsv (opcodeCommand_eq_none hop)) s
  · have hmap : opcodeMap[(opField v).toNat]? = some opcodeMap[(opField v).toNat] := List.getElem?_eq_getElem hop
    have hdecode := decode_of_opcodeCommand_some hrsv ((opcodeCommand_eq_getElem? _).trans hmap)
    exact ⟨_, hmap, issueCommand_of_decode_ok hdecode s⟩

end Sys2Proof.Machine
end

section
/-!
Proofs of the statements on bit conditioning (40_conditioning.md): REV, COND, PDU_CHECK and COND_BLOCK. First bit reversal
and what each command ends in for operands it accepts and for those it refuses, then the statements.
-/

namespace Sys2Proof.Machine

variable {s : State} {c : Fin 3} {p : Fin 17} {m : Byte}

/-! ### Bit reversal (R85) -/

theorem rev8_getLsbD (x : Byte) {k : Nat} (hk : k < 8) : (rev8 x).getLsbD (7 - k) = x.getLsbD k := by
  simp only [rev8, bitOf, BitVec.getLsbD_append, BitVec.getLsbD_ofBool]
  interval_cases k <;> rfl

/-! ### The mask operand of COND -/

theorem selectedMaskByte_ok (hc : s.channel.toNat = c) (hp : s.pos.toNat = p) :
    selectedMaskByte s = .ok (maskByte s c p) := by
  rw [selectedMaskByte, selectedChannel_ok s hc, selectedPosition_ok s hp]

theorem selectedMaskByte_badChannel (hc : s.channel = 3) : selectedMaskByte s = .error .badChannel := by
  rw [selectedMaskByte, selectedChannel_bad s hc]

theorem selectedMaskByte_badPosition (hc : s.channel ≠ 3) (hp : 16 < s.pos.toNat) :
    selectedMaskByte s = .error .badPosition := by
  have hok : selectedChannel s = .ok ⟨s.channel.toNat, channel_lt_three s hc⟩ := selectedChannel_ok s rfl
  rw [selectedMaskByte, hok, selectedPosition_bad s hp]

/-! ### What each command ends in -/

theorem exec_cond_of_maskByte (h : selectedMaskByte s = .ok m) :
    exec .cond s = .next ((s.setDout (conditionByte s.din m)).setErrcode 0x00) := by
  simp only [exec_cond, execCond, h, complete_eq]

theorem exec_cond_of_error {e : CommandError} (h : selectedMaskByte s = .error e) :
    exec .cond s = .next (s.setErrcode e.code) := by
  simp only [exec_cond, execCond, h, raise_eq]

theorem exec_pduCheck_of_channel (hc : s.channel.toNat = c) :
    exec .pduCheck s = .next (((s.setDout (conditionByte s.din (maskByte s c 0))).setPduMatch
      (pduAgrees (conditionByte s.din (maskByte s c 0)) s.pduType)).setErrcode 0x00) := by
  simp only [exec_pduCheck, execPduCheck, selectedChannel_ok s hc, complete_eq]

theorem exec_condBlock_of_channel (hc : s.channel.toNat = c) :
    exec .condBlock s = .next ((s.setBlock (conditionChunk s.block s.mask[c])).setErrcode 0x00) := by
  simp only [exec_condBlock, execCondBlock, selectedChannel_ok s hc, complete_eq]

/-- The three commands that use the channel report BadChannel at 3 (60_exceptions.md R155). -/
theorem exec_of_channel_eq_three {i : Instr} (hi : i ∈ [.cond, .pduCheck, .condBlock]) (hc : s.channel = 3) :
    exec i s = .next (s.setErrcode 0x02) := by
  have hbad := selectedChannel_bad s hc
  simp only [List.mem_cons, List.not_mem_nil, or_false] at hi
  obtain rfl | rfl | rfl := hi
  · exact exec_cond_of_error (selectedMaskByte_badChannel hc)
  · simp only [exec_pduCheck, execPduCheck, hbad, raise_eq, code_badChannel]
  · simp only [exec_condBlock, execCondBlock, hbad, raise_eq, code_badChannel]

/-! ### The statements -/

/-- Settles O26: REV is `setDout` of the reversed byte, whose bits are `rev8_getLsbD`. -/
theorem revReversesDin : Obligations.RevReversesDin := by
  unfold Obligations.RevReversesDin
  exact ⟨decode_encode .rev, fun s => (exec_rev s).trans (execRev_eq s), fun x _ => rev8_getLsbD x⟩

/-- Settles O27: the three clauses are the three outcomes of COND's mask operand. -/
theorem condConditionsDin : Obligations.CondConditionsDin := by
  unfold Obligations.CondConditionsDin
  refine ⟨decode_encode .cond, fun s => ⟨fun c p hc hp => ?_, fun hc => ?_, fun hc hp => ?_⟩⟩
  · exact exec_cond_of_maskByte (selectedMaskByte_ok hc hp)
  · exact exec_cond_of_error (selectedMaskByte_badChannel hc)
  · exact exec_cond_of_error (selectedMaskByte_badPosition hc hp)

/-- Settles O28: with a table selected, DIN is conditioned at position 0, whatever POS holds. -/
theorem pduCheckComparesTheConditionedByte : Obligations.PduCheckComparesTheConditionedByte := by
  unfold Obligations.PduCheckComparesTheConditionedByte
  refine ⟨decode_encode .pduCheck, fun s => ⟨fun c hc => ?_, fun hc => ?_⟩⟩
  · exact exec_pduCheck_of_channel hc
  · exact exec_of_channel_eq_three (by simp) hc

/-- Settles O29: with a table selected, BLOCK becomes the conditioned chunk, told byte by byte by
`conditionChunk_getElem`. -/
theorem condBlockConditionsTheChunk : Obligations.CondBlockConditionsTheChunk := by
  unfold Obligations.CondBlockConditionsTheChunk
  refine ⟨decode_encode .condBlock, fun s => ⟨fun c hc => ?_, fun hc => ?_⟩⟩
  · exact ⟨_, exec_condBlock_of_channel hc, rfl, fun i => conditionChunk_getElem s.block s.mask[c] i i.isLt⟩
  · exact exec_of_channel_eq_three (by simp) hc

end Sys2Proof.Machine
end

section
/-!
Proofs of the statements on AES (41_aes.md): the S-boxes, the schedule step, the steps of a round, and the two commands.
First the facts on words, bytes and cells that the statements need, then the statements.
-/

namespace Sys2Proof.Machine

/-! ### The S-boxes: field inversion and an affine map (R104, R105) -/

/-- The affine map of the S-box (R104). -/
def sboxAffine (b : Byte) : Byte := b ^^^ rotl8 b 1 ^^^ rotl8 b 2 ^^^ rotl8 b 3 ^^^ rotl8 b 4 ^^^ 0x63

/-- The affine map of the inverse S-box (R105). -/
def invSboxAffine (y : Byte) : Byte := rotl8 y 1 ^^^ rotl8 y 3 ^^^ rotl8 y 6 ^^^ 0x05

theorem subByte_eq (x : Byte) : subByte x = sboxAffine (ginv x) := rfl

theorem invSubByte_eq (y : Byte) : invSubByte y = ginv (invSboxAffine y) := rfl

theorem invSboxAffine_sboxAffine (b : Byte) : invSboxAffine (sboxAffine b) = b := by
  revert b
  decide +kernel

theorem sboxAffine_invSboxAffine (y : Byte) : sboxAffine (invSboxAffine y) = y := by
  revert y
  decide +kernel

/-- Field inversion is its own inverse, at 0 too. -/
theorem ginv_ginv (x : Byte) : ginv (ginv x) = x := by
  revert x
  decide +kernel

theorem invSubByte_subByte (x : Byte) : invSubByte (subByte x) = x := by
  rw [subByte_eq, invSubByte_eq, invSboxAffine_sboxAffine, ginv_ginv]

theorem subByte_invSubByte (y : Byte) : subByte (invSubByte y) = y := by
  rw [subByte_eq, invSubByte_eq, ginv_ginv, sboxAffine_invSboxAffine]

/-! ### Words of the schedule, byte by byte (R108) -/

/-- Byte `r` of four joined bytes is the `r`-th of them. -/
theorem wordByte_append_apply (f : Fin 4 → Byte) (r : Fin 4) : wordByte (f 0 ++ f 1 ++ f 2 ++ f 3) r = f r := by
  obtain ⟨h0, h1, h2, h3⟩ := wordByte_append (f 0) (f 1) (f 2) (f 3)
  fin_cases r
  · exact h0
  · exact h1
  · exact h2
  · exact h3

theorem wordByte_subWord (w : KeyWord) (r : Fin 4) : wordByte (subWord w) r = subByte (wordByte w r) :=
  wordByte_append_apply (fun r => subByte (wordByte w r)) r

theorem wordByte_rotWord (w : KeyWord) (r : Fin 4) : wordByte (rotWord w) r = wordByte w (r + 1) :=
  wordByte_append_apply (fun r => wordByte w (r + 1)) r

theorem wordByte_rconWord (rc : Byte) (r : Fin 4) : wordByte (rconWord rc) r = if r = 0 then rc else 0 := by
  revert rc r
  decide +kernel

theorem wordByte_scheduleCore (w : KeyWord) (rc : Byte) (r : Fin 4) :
    wordByte (scheduleCore w rc) r = subByte (wordByte w (r + 1)) ^^^ if r = 0 then rc else 0 := by
  rw [scheduleCore, wordByte_xor, wordByte_subWord, wordByte_rotWord, wordByte_rconWord]

/-! ### The schedule step in words and in bytes (R109) -/

theorem keyWord_expandStep_zero (k : Chunk) (rc : Byte) :
    keyWord (expandStep k rc) 0 = keyWord k 0 ^^^ scheduleCore (keyWord k 3) rc :=
  keyWord_ofKeyWords _ 0

/-- Each later word adds the new word before it. -/
theorem keyWord_expandStep_succ (k : Chunk) (rc : Byte) (j : Fin 3) :
    keyWord (expandStep k rc) j.succ = keyWord k j.succ ^^^ keyWord (expandStep k rc) j.castSucc := by
  simp only [expandStep, keyWord_ofKeyWords]
  fin_cases j <;> rfl

/-- The bytes of the first new word: `r + 1` wraps from 3 to 0, which is the rotation. -/
theorem expandStep_getElem_first (k : Chunk) (rc : Byte) (r : Fin 4) :
    (expandStep k rc)[r.val] = k[r.val] ^^^ (subByte k[12 + (r + 1).val] ^^^ if r = 0 then rc else 0) := by
  have hword := congrArg (wordByte · r) (keyWord_expandStep_zero k rc)
  simpa [wordByte_keyWord, wordByte_scheduleCore] using hword

/-- A later byte adds the new byte four places before it. -/
theorem expandStep_getElem_later (k : Chunk) (rc : Byte) (i : Fin 12) :
    (expandStep k rc)[i.val + 4] = k[i.val + 4] ^^^ (expandStep k rc)[i.val] := by
  have hword := congrArg (wordByte · ⟨i.val % 4, by omega⟩) (keyWord_expandStep_succ k rc ⟨i.val / 4, by omega⟩)
  have hlast : 4 * (i.val / 4) + i.val % 4 = i.val := by omega
  have hnext : 4 * (i.val / 4 + 1) + i.val % 4 = i.val + 4 := by omega
  simpa [wordByte_keyWord, hlast, hnext] using hword

/-! ### The steps of a round, cell by cell (R112, R114) -/

theorem cell_eq_getElem (st : Chunk) (r c : Fin 4) : cell st r c = st[r.val + 4 * c.val] := rfl

theorem cell_invShiftRows (st : Chunk) (r c : Fin 4) : cell (invShiftRows st) r c = cell st r (c - r) :=
  cell_ofCells _ r c

/-- The matrix of the inverse column mix: row `r`'s coefficients (R114). -/
def invMixCoefficients : Fin 4 → Vector Byte 4
  | 0 => #v[0x0E, 0x0B, 0x0D, 0x09]
  | 1 => #v[0x09, 0x0E, 0x0B, 0x0D]
  | 2 => #v[0x0D, 0x09, 0x0E, 0x0B]
  | 3 => #v[0x0B, 0x0D, 0x09, 0x0E]

theorem cell_invMixColumns (st : Chunk) (r c : Fin 4) :
    cell (invMixColumns st) r c = mixRow st c (invMixCoefficients r)[0] (invMixCoefficients r)[1]
      (invMixCoefficients r)[2] (invMixCoefficients r)[3] := by
  rw [invMixColumns, cell_ofCells]
  fin_cases r <;> rfl

/-! ### What the two commands leave in KEY and BLOCK when KEY is what they need -/

section Commands

variable {s t : State}

theorem exec_keyDerive_key (h : exec .keyDerive s = .next t) (hk : s.keyState = .raw) : t.key = deriveStart s.key := by
  obtain ⟨-, e⟩ | ⟨hne, -⟩ := execKeyDerive_cases s
  · rw [exec_keyDerive, e] at h
    obtain rfl := (complete_eq_next _ _).mp h
    simp
  · exact absurd hk hne

theorem exec_decrypt_block (h : exec .decrypt s = .next t) (hk : s.keyState = .start) :
    t.block = (invCipher s.block s.key).1 := by
  obtain ⟨-, e⟩ | ⟨hne, -⟩ := execDecrypt_cases s
  · rw [exec_decrypt, e, drawKey_eq] at h
    obtain rfl := (complete_eq_next _ _).mp h
    simp
  · exact absurd hk hne

end Commands

/-! ### The statements -/

/-- Settles O51: bytes 0 to 3 are the first word's, and a later word adds the word before it. -/
theorem expandStepByWordAndByte : Obligations.ExpandStepByWordAndByte := by
  unfold Obligations.ExpandStepByWordAndByte
  intro k rc
  have first := expandStep_getElem_first k rc
  have hword := keyWord_expandStep_succ k rc
  refine ⟨keyWord_expandStep_zero k rc, hword 0, hword 1, hword 2, ?_, ?_, ?_, ?_, expandStep_getElem_later k rc⟩
  · simpa [BitVec.xor_assoc] using first 0
  · simpa using first 1
  · simpa using first 2
  · simpa using first 3

/-- Settles O30: KEY_DERIVE writes KEY, KEY_STATE, ERRCODE and the draw counter, and from RAW the key is the start key. -/
theorem keyDeriveMakesTheStartKey : Obligations.KeyDeriveMakesTheStartKey := by
  unfold Obligations.KeyDeriveMakesTheStartKey
  refine ⟨decode_encode .keyDerive, fun s => ?_⟩
  obtain ⟨k, n, e⟩ := exec_keyDerive_eq s
  have hnext := e.trans (complete_eq _)
  exact ⟨_, hnext, rfl, exec_keyDerive_key hnext⟩

/-- Settles O31: DECRYPT writes BLOCK, KEY, KEY_STATE, ERRCODE and the draw counter, and from START the block is the
plaintext. -/
theorem decryptDecryptsInPlace : Obligations.DecryptDecryptsInPlace := by
  unfold Obligations.DecryptDecryptsInPlace
  refine ⟨decode_encode .decrypt, fun s => ?_⟩
  obtain ⟨b, k, n, e⟩ := exec_decrypt_eq s
  have hnext := e.trans (complete_eq _)
  refine ⟨_, hnext, ?_, exec_decrypt_block hnext⟩
  simp only [State.setBlock, State.setKey, State.setDraws, State.setKeyState, State.setErrcode]

/-- Settles O46: the two affine maps undo each other, and field inversion undoes itself. -/
theorem inverseSBoxInverts : Obligations.InverseSBoxInverts := by
  unfold Obligations.InverseSBoxInverts
  exact ⟨fun _ => rfl, invSubByte_subByte, subByte_invSubByte, by decide +kernel⟩

/-- Settles O49: the column `c - r` of InvShiftRows is taken modulo 4. -/
theorem roundStepsByByte : Obligations.RoundStepsByByte := by
  unfold Obligations.RoundStepsByByte
  intro st k r c
  refine ⟨?_, Vector.getElem_map .., addRoundKey_getElem ..⟩
  have hcol : (c - r).val = (c.val + 4 - r.val) % 4 := by omega
  simpa only [cell_eq_getElem, hcol] using cell_invShiftRows st r c

/-- Settles O50: the four bytes of column `c` are its four cells. -/
theorem invMixColumnsByByte : Obligations.InvMixColumnsByByte := by
  unfold Obligations.InvMixColumnsByByte
  intro st c
  have hmix := fun r => cell_invMixColumns st r c
  simp only [mixRow, cell_eq_getElem, Nat.add_comm _ (4 * c.val)] at hmix
  exact ⟨hmix 0, hmix 1, hmix 2, hmix 3⟩

end Sys2Proof.Machine
end

section
/-!
Proofs of the statements on CRC-24 (42_crc.md): the check values, Unmask, and the three commands. First the embedded CRC
and the logical bytes in the form the statements write them in, then Unmask byte by byte, then the statements.
-/

namespace Sys2Proof.Machine

variable (b : Chunk) {i : Nat}

/-! ### The bytes of a chunk (R54, R133) -/

/-- Three joined bytes, as the shifts of R132 write them: bit `i` is the last byte's below 8, the middle one's below 16
and the first one's above. -/
theorem append_three_eq_or (x y z : Byte) :
    (x ++ y ++ z : Word24) = (x.setWidth 24 <<< 16) ||| (y.setWidth 24 <<< 8) ||| z.setWidth 24 := by
  ext i hi
  simp only [BitVec.getElem_append, BitVec.getElem_or, BitVec.getElem_shiftLeft, BitVec.getElem_setWidth]
  grind

theorem embeddedCrc_eq_or :
    embeddedCrc b = (b[0].setWidth 24 <<< 16) ||| (b[1].setWidth 24 <<< 8) ||| b[2].setWidth 24 := by
  rw [embeddedCrc, append_three_eq_or]

theorem logicalBytes_eq :
    logicalBytes b = [b[3], b[4], b[5], b[6], b[7], b[8], b[9], b[10], b[11], b[12], b[13], b[14], b[15]] := by
  refine List.ext_getElem (by simp [logicalBytes]) fun i _ hi => ?_
  simp only [List.length_cons, List.length_nil] at hi
  interval_cases i <;> simp [logicalBytes]

/-! ### Unmask (R132) -/

theorem unmask_getElem_of_lt (h : i < 3) : (unmask b)[i] = b[i] := by
  rw [unmask_getElem, if_pos h]

theorem unmask_getElem_of_le (h : 3 ≤ i) (hi : i < 16) :
    (unmask b)[i] = b[i] ^^^ (embeddedCrc b >>> (i - 3)).setWidth 8 := by
  rw [unmask_getElem, if_neg (by omega), unmaskByte]

/-- The mask depends on the embedded CRC alone, which unmasking keeps, so the second mask cancels the first. -/
theorem unmask_unmask : unmask (unmask b) = b := by
  ext i hi
  by_cases h : i < 3
  · rw [unmask_getElem_of_lt _ h, unmask_getElem_of_lt _ h]
  · have hle : 3 ≤ i := by omega
    rw [unmask_getElem_of_le _ hle, unmask_getElem_of_le _ hle, embeddedCrc_unmask, BitVec.xor_assoc, BitVec.xor_self,
      BitVec.xor_zero]

/-! ### The CRC of a byte string (R131) -/

theorem crc24_eq_foldl (m : List Byte) : crc24 m = m.foldl crc24Step crcInitial := by
  rw [← crc24_nil, ← crc24_append, List.nil_append]

/-! ### The statements -/

/-- Settles O34: VALIDATE completes with the block unmasked, both CRCs and their comparison. -/
theorem validateUnmasksAndChecks : Obligations.ValidateUnmasksAndChecks := by
  unfold Obligations.ValidateUnmasksAndChecks
  refine ⟨decode_encode .validate, fun s => ?_⟩
  have hnext := (exec_validate s).trans ((execValidate_eq s).trans (complete_eq _))
  refine ⟨_, hnext, rfl, embeddedCrc_eq_or s.block, fun i hi => ?_, fun i hi => ?_, ?_, ?_⟩
  · exact unmask_getElem_of_lt s.block hi
  · exact unmask_getElem_of_le s.block hi i.isLt
  · exact congrArg crc24 (logicalBytes_eq (unmask s.block))
  · exact crcAgrees_eq _ _

/-- Settles O56: byte by byte from `unmask_getElem`, with the embedded CRC written out. -/
theorem unmaskByByteAndTwice : Obligations.UnmaskByByteAndTwice := by
  unfold Obligations.UnmaskByByteAndTwice
  refine fun b => ⟨fun i hi => unmask_getElem_of_lt b hi, fun i hi => ?_, unmask_unmask b⟩
  rw [← embeddedCrc_eq_or]
  exact unmask_getElem_of_le b hi i.isLt

/-- Settles O35: CRC_INIT is `setCrcAcc` of the initial value. -/
theorem crcInitStartsAFreshCrc : Obligations.CrcInitStartsAFreshCrc := by
  unfold Obligations.CrcInitStartsAFreshCrc
  exact ⟨decode_encode .crcInit, fun s => (exec_crcInit s).trans (execCrcInit_eq s)⟩

/-- Settles O36: CRC_BYTE is `setCrcAcc` of one more step of the generator. -/
theorem crcByteFeedsDin : Obligations.CrcByteFeedsDin := by
  unfold Obligations.CrcByteFeedsDin
  exact ⟨decode_encode .crcByte, fun s => (exec_crcByte s).trans (execCrcByte_eq s)⟩

/-- Settles O55: the generator is run on the three strings. -/
theorem crcCheckValue : Obligations.CrcCheckValue := by
  unfold Obligations.CrcCheckValue
  refine ⟨?_, crc24_nil, ?_⟩
  · rw [crc24_eq_foldl]
    decide +kernel
  · rw [crc24_eq_foldl]
    decide +kernel

end Sys2Proof.Machine
end

section
/-!
Proof of the statement on NOP (43_control.md R145). First what the return of ERRCODE to 0x00 does to STATUS, then the
statement.
-/

namespace Sys2Proof.Machine

/-! ### STATUS after an ERRCODE of 0x00 (R24, R42) -/

@[simp] theorem err_setErrcode_zero (s : State) : (s.setErrcode 0x00).err = false := by
  rw [State.err, State.setErrcode_errcode]
  rfl

/-- ERR is bit 2 of STATUS, and the other two flags are not views of ERRCODE. -/
theorem status_setErrcode_zero (s : State) : status (s.setErrcode 0x00) = status s &&& ~~~0x04 := by
  rw [status, status, err_setErrcode_zero, State.setErrcode_pduMatch, State.setErrcode_valid]
  cases s.err <;> cases s.pduMatch <;> cases s.valid <;> rfl

/-! ### The statement -/

/-- Settles O25: NOP only completes, and completing clears the one flag of STATUS that is a view of ERRCODE. -/
theorem nopWritesOnlyErrcode : Obligations.NopWritesOnlyErrcode := by
  unfold Obligations.NopWritesOnlyErrcode
  refine ⟨decode_encode .nop, fun s => ⟨s.setErrcode 0x00, ?_, rfl, status_setErrcode_zero s⟩⟩
  exact (exec_nop s).trans ((execNop_eq s).trans (complete_eq s))

end Sys2Proof.Machine
end

section
/-!
Proofs of the statements on exceptions (60_exceptions.md): which writes ERRCODE, with which code, and what an error leaves
unchanged. First the bytes that name no command and the two ways a command byte can end, then the statements.
-/

namespace Sys2Proof.Machine

open Sys2Proof.Claims

variable {s : State} {v : Byte} {off : Byte} {rest : List PortEvent}

/-! ### Command bytes that name no command, and those that name one (R154) -/

theorem issueCommand_of_illegal (h : v.extractLsb' 4 4 ≠ 0 ∨ 0xA ≤ (v.extractLsb' 0 4).toNat) (s : State) :
    issueCommand v s = .next (s.setErrcode 0x01) := by
  obtain ⟨hreserved, hopcode, -⟩ := commandByteRunsItsCommandOrIsIllegal v s
  by_cases hrsv : v.extractLsb' 4 4 = 0
  · exact hopcode hrsv (h.resolve_left (not_not_intro hrsv))
  · exact hreserved hrsv

theorem exists_eq_encode_of_legal (h : ¬(v.extractLsb' 4 4 ≠ 0 ∨ 0xA ≤ (v.extractLsb' 0 4).toNat)) :
    ∃ i, v = encode i := by
  obtain ⟨hrsv, hop⟩ := not_or.mp h
  have hmap := (opcodeCommand_eq_getElem? (opField v)).trans (List.getElem?_eq_getElem (not_le.mp hop))
  exact ⟨_, eq_encode_of_decode (decode_of_opcodeCommand_some (not_not.mp hrsv) hmap)⟩

/-! ### The error a command byte meets (R151, R160) -/

theorem errorCode_of_illegal (h : v.extractLsb' 4 4 ≠ 0 ∨ 0xA ≤ (v.extractLsb' 0 4).toNat) (s : State) :
    errorCode v s = 0x01 := if_pos h

/-- The byte of a command meets no IllegalCommand, and the operand checks are those of the command. -/
theorem errorCode_encode (i : Instr) (s : State) :
    errorCode (encode i) s =
      if i ∈ [Instr.cond, .pduCheck, .condBlock] ∧ s.channel = 3 then 0x02
      else if i = .cond ∧ 16 < s.pos.toNat then 0x03
      else 0x00 := by
  cases i <;> simp [errorCode, encode, opcode]

theorem errorCode_encode_badChannel {i : Instr} (hi : i ∈ [Instr.cond, .pduCheck, .condBlock]) (hc : s.channel = 3) :
    errorCode (encode i) s = 0x02 := by
  rw [errorCode_encode, if_pos ⟨hi, hc⟩]

theorem errorCode_encode_badPosition (hc : s.channel ≠ 3) (hp : 16 < s.pos.toNat) :
    errorCode (encode .cond) s = 0x03 := by
  rw [errorCode_encode, if_neg fun h => hc h.2, if_pos ⟨rfl, hp⟩]

/-- A command meets no error when the operands that it uses are legal. -/
theorem errorCode_encode_eq_zero {i : Instr} (hc : i ∈ [Instr.cond, .pduCheck, .condBlock] → s.channel ≠ 3)
    (hp : i = .cond → s.pos.toNat ≤ 16) : errorCode (encode i) s = 0x00 := by
  rw [errorCode_encode, if_neg fun h => hc h.1 h.2, if_neg fun h => not_lt.mpr (hp h.1) h.2]

theorem channel_ne_three_of_toNat {c : Fin 3} (h : s.channel.toNat = c) : s.channel ≠ 3 := by
  intro h3
  have hc : s.channel.toNat < 3 := h ▸ c.isLt
  simp [h3] at hc

/-! ### The two ways a command ends: with the error it meets and nothing else changed, or with ERRCODE 0x00 -/

theorem exec_ends (i : Instr) (s : State) :
    (∃ e : CommandError, exec i s = .next (s.setErrcode e.code) ∧ errorCode (encode i) s = e.code) ∨
      ∃ t : State, exec i s = .next (t.setErrcode 0x00) ∧ errorCode (encode i) s = 0x00 := by
  cases i with
  | cond =>
    obtain ⟨c, p, hc, hp, e⟩ | ⟨hc, e⟩ | ⟨hc, hp, e⟩ := execCond_cases s
    · have hpos : s.pos.toNat ≤ 16 := hp ▸ Nat.le_of_lt_succ p.isLt
      exact .inr ⟨_, e, errorCode_encode_eq_zero (fun _ => channel_ne_three_of_toNat hc) fun _ => hpos⟩
    · exact .inl ⟨.badChannel, e, errorCode_encode_badChannel (by simp) hc⟩
    · exact .inl ⟨.badPosition, e, errorCode_encode_badPosition hc hp⟩
  | pduCheck =>
    obtain ⟨c, hc, e⟩ | ⟨hc, e⟩ := execPduCheck_cases s
    · exact .inr ⟨_, e, errorCode_encode_eq_zero (fun _ => channel_ne_three_of_toNat hc) nofun⟩
    · exact .inl ⟨.badChannel, e, errorCode_encode_badChannel (by simp) hc⟩
  | condBlock =>
    obtain ⟨c, hc, e⟩ | ⟨hc, e⟩ := execCondBlock_cases s
    · exact .inr ⟨_, e, errorCode_encode_eq_zero (fun _ => channel_ne_three_of_toNat hc) nofun⟩
    · exact .inl ⟨.badChannel, e, errorCode_encode_badChannel (by simp) hc⟩
  | keyDerive =>
    obtain ⟨k, n, e⟩ := exec_keyDerive_eq s
    exact .inr ⟨_, e, errorCode_encode_eq_zero (by simp) nofun⟩
  | decrypt =>
    obtain ⟨b, k, n, e⟩ := exec_decrypt_eq s
    exact .inr ⟨_, e, errorCode_encode_eq_zero (by simp) nofun⟩
  | validate => exact .inr ⟨_, execValidate_eq s, errorCode_encode_eq_zero (by simp) nofun⟩
  | nop | rev | crcInit | crcByte => exact .inr ⟨_, rfl, errorCode_encode_eq_zero (by simp) nofun⟩

theorem issueCommand_ends (v : Byte) (s : State) :
    (∃ e : CommandError, issueCommand v s = .next (s.setErrcode e.code) ∧ errorCode v s = e.code) ∨
      ∃ t : State, issueCommand v s = .next (t.setErrcode 0x00) ∧ errorCode v s = 0x00 := by
  by_cases h : v.extractLsb' 4 4 ≠ 0 ∨ 0xA ≤ (v.extractLsb' 0 4).toNat
  · exact .inl ⟨.illegalCommand, issueCommand_of_illegal h s, errorCode_of_illegal h s⟩
  · obtain ⟨i, rfl⟩ := exists_eq_encode_of_legal h
    rw [issueCommand_encode]
    exact exec_ends i s

/-- Every command byte answers a next state, whose ERRCODE is the code of the error met or 0x00. -/
theorem exists_issueCommand_next_errcode (v : Byte) (s : State) :
    ∃ t, issueCommand v s = .next t ∧ t.errcode = errorCode v s := by
  obtain ⟨e, hissue, hcode⟩ | ⟨t, hissue, hcode⟩ := issueCommand_ends v s
  · exact ⟨_, hissue, hcode.symm⟩
  · exact ⟨_, hissue, hcode.symm⟩

theorem code_eq_one_or_two_or_three (e : CommandError) : e.code = 0x01 ∨ e.code = 0x02 ∨ e.code = 0x03 := by
  cases e <;> decide

/-! ### No command reads ERRCODE (R153) -/

theorem decryptBlock_setErrcode (s : State) (x : Byte) :
    decryptBlock (s.setErrcode x) = (decryptBlock s).setErrcode x := by
  rw [decryptBlock, decryptBlock, State.setErrcode_keyState]
  cases s.keyState <;> rfl

theorem exec_setErrcode (i : Instr) (s : State) (x : Byte) : exec i (s.setErrcode x) = exec i s := by
  cases i with
  | decrypt =>
    rw [exec_decrypt, execDecrypt, decryptBlock_setErrcode]
    rfl
  | nop | rev | cond | pduCheck | condBlock | keyDerive | validate | crcInit | crcByte => rfl

theorem issueCommand_setErrcode (v : Byte) (s : State) (x : Byte) :
    issueCommand v (s.setErrcode x) = issueCommand v s := by
  obtain ⟨i, hd, e⟩ | ⟨r, hd, e⟩ := issueCommand_cases s v
  · rw [issueCommand_of_decode_ok hd, e, exec_setErrcode]
  · rw [issueCommand_of_decode_error hd, e]
    rfl

/-! ### Plain writes leave ERRCODE, and some are ignored (R171) -/

theorem writeRegister_errcode (s : State) (r : Reg) (v : Byte) : (writeRegister s r v).errcode = s.errcode :=
  (writeRegister_frame s r v).1

/-- The registers that ignore a plain write: the read-only ones and the reserved offsets (20_memory.md R59). A write to CMD
runs a command, and is no plain write. -/
def Reg.ignoresWrites : Reg → Bool
  | .status | .errcode | .dout | .crcEmb _ | .crcCalc _ | .crcAcc _ | .reserved => true
  | .cmd | .channel | .pos | .din | .pduType | .key _ | .block _ | .mask _ _ => false

theorem regAt_ignoresWrites (off : Byte) :
    (regAt off).ignoresWrites = (reservedOffset off || readOnlyOffset off) := by
  revert off
  decide +kernel

theorem writeRegister_of_ignoresWrites {r : Reg} (h : r.ignoresWrites = true) (s : State) (v : Byte) :
    writeRegister s r v = s := by
  obtain e | ⟨rfl, -⟩ | ⟨rfl, -⟩ | ⟨rfl, -⟩ | ⟨rfl, -⟩ | ⟨i, rfl, -⟩ | ⟨i, rfl, -⟩ | ⟨c, p, rfl, -⟩ :=
    writeRegister_cases s r v
  · exact e
  all_goals cases h

/-- CMD is not among the registers that ignore writes, so such a write runs no command. -/
theorem step_ignoredWrite (h : HostNext s (.write off v) rest)
    (hoff : reservedOffset off = true ∨ readOnlyOffset off = true) : step s = .next (s.setPending rest) := by
  have hignored : (regAt off).ignoresWrites = true := by simpa [regAt_ignoresWrites] using hoff
  have h0 : off ≠ 0x00 := by
    rintro rfl
    cases hignored
  rw [step_hostWrite_register h h0, writeWindow_eq, writeRegister_of_ignoresWrites hignored]

/-! ### The statements -/

/-- Settles O21: a command byte ends with the code of the error it meets, and reads no ERRCODE, so that the state it leaves
does not depend on the code it finds. -/
theorem errcodeReportsTheLastCommandOnly : Obligations.ErrcodeReportsTheLastCommandOnly := by
  unfold Obligations.ErrcodeReportsTheLastCommandOnly
  intro v x s
  obtain ⟨t, hissue, hcode⟩ := exists_issueCommand_next_errcode v s
  have hagain : issueCommand v (s.setErrcode x) = .next t := (issueCommand_setErrcode v s x).trans hissue
  exact ⟨t, t, hissue, hcode, hagain, rfl, fun _ => rfl, fun _ => rfl⟩

/-- Settles O20: the two ways a command byte ends are the two clauses. -/
theorem errorsChangeOnlyErrcode : Obligations.ErrorsChangeOnlyErrcode := by
  unfold Obligations.ErrorsChangeOnlyErrcode
  intro v s
  obtain ⟨e, hissue, -⟩ | ⟨t, hissue, -⟩ := issueCommand_ends v s
  · exact ⟨_, hissue, .inr ⟨code_eq_one_or_two_or_three e, rfl⟩⟩
  · exact ⟨_, hissue, .inl rfl⟩

/-- Settles O7: a read and a plain write leave ERRCODE, a plain write to a register that ignores writes leaves everything,
and the events that are neither are the four of the last clause. -/
theorem onlyCommandsProduceErrcode : Obligations.OnlyCommandsProduceErrcode := by
  unfold Obligations.OnlyCommandsProduceErrcode
  refine ⟨fun s op rest hn hop => ?_, fun s off v rest => step_ignoredWrite, fun s t h hne => ?_⟩
  · cases op with
    | read off => exact ⟨_, step_hostRead hn, rfl⟩
    | write off v =>
      have h0 : off ≠ 0x00 := by
        rintro rfl
        exact hop v rfl
      exact ⟨_, step_hostWrite_register hn h0, writeRegister_errcode (s.setPending rest) (regAt off) v⟩
  · cases hp : s.pending with
    | nil =>
      obtain rfl := Host.Outcome.next.inj ((step_nil s hp).symm.trans h)
      exact absurd rfl hne
    | cons e rest =>
      rw [step_cons s hp] at h
      refine ⟨rest, ?_⟩
      obtain ⟨off, -, rfl⟩ | ⟨off, v, -, -, rfl⟩ | ⟨v, rfl, -⟩ | ⟨rfl, -⟩ | ⟨op, rfl, -⟩ | ⟨rfl, -⟩ :=
        perform_next_cases _ h
      · exact absurd rfl hne
      · exact absurd (writeRegister_errcode (s.setPending rest) (regAt off) v) hne
      · exact .inl ⟨v, rfl⟩
      · exact .inr (.inl rfl)
      · exact .inr (.inr (.inl ⟨op, rfl⟩))
      · exact .inr (.inr (.inr rfl))

/-- Settles O19: the step issues the byte, which names no command. -/
theorem illegalCommandBytesSetErrcode : Obligations.IllegalCommandBytesSetErrcode := by
  unfold Obligations.IllegalCommandBytesSetErrcode
  exact fun s v rest hn h =>
    calc step s = hostWrite 0x00 v (s.setPending rest) := step_of_hostNext hn
      _ = issueCommand v (s.setPending rest) := hostWrite_cmd _ v
      _ = .next ((s.setPending rest).setErrcode 0x01) := issueCommand_of_illegal h _

/-- Settles O22, by the outcome of the three commands at channel 3. -/
theorem badChannelIsReported : Obligations.BadChannelIsReported := by
  unfold Obligations.BadChannelIsReported
  exact fun s i hc hi => exec_of_channel_eq_three (by simpa using hi) hc

/-- Settles O23: the byte is decoded before any operand is, and the channel before the position. -/
theorem errorPriority : Obligations.ErrorPriority := by
  unfold Obligations.ErrorPriority
  refine fun s hc hp => ⟨fun v h => ?_, ?_, fun c hne => ?_⟩
  · exact issueCommand_of_illegal h s
  · exact exec_of_channel_eq_three (by simp) hc
  · exact exec_cond_of_error (s := s.setChannel c) (selectedMaskByte_badPosition hne hp)

end Sys2Proof.Machine
end

section
/-!
Proof of the statement on the reset table (70_reset_and_hazards.md R181). First what stands in the three files of bytes
and in STATUS after reset, then the statement.
-/

namespace Sys2Proof.Machine

/-! ### The files and STATUS after reset (R181) -/

theorem reset_key_getElem (i : Fin 16) : State.reset.key[i] = 0x00 :=
  Vector.getElem_replicate i.isLt

theorem reset_block_getElem (i : Fin 16) : State.reset.block[i] = 0x00 :=
  Vector.getElem_replicate i.isLt

theorem reset_mask_getElem (c : Fin 3) : State.reset.mask[c] = Vector.replicate 17 0x00 :=
  Vector.getElem_replicate c.isLt

theorem reset_mask_getElem_getElem (c : Fin 3) (p : Fin 17) : (State.reset.mask[c])[p] = 0x00 := by
  rw [reset_mask_getElem]
  exact Vector.getElem_replicate p.isLt

/-- ERRCODE is 0x00 after reset, so its view ERR is clear (R42), and the other two flags are clear themselves. -/
theorem status_reset : status State.reset = 0x00 := rfl

/-! ### The statement -/

/-- Settles O1: the plain registers hold their values by the definition of reset, each file is all zero bytes, STATUS reads
its three clear flags, and CMD and the reserved offsets read 0x00 in every state (R37). -/
theorem resetValuesAreTheTable : Obligations.ResetValuesAreTheTable := by
  unfold Obligations.ResetValuesAreTheTable
  obtain ⟨hreserved, -⟩ := reservedOffsetsAndBitsReadZero
  have hstatus : readWindow State.reset 0x01 = 0x00 := status_reset
  have hcmd : readWindow State.reset 0x00 = 0x00 := rfl
  exact ⟨rfl, rfl, rfl, hstatus, rfl, rfl, rfl, rfl, rfl, rfl, rfl, rfl, rfl, reset_key_getElem, rfl,
    reset_block_getElem, reset_mask_getElem_getElem, hcmd, hreserved State.reset⟩

end Sys2Proof.Machine
end

section
/-!
Proofs of the statements that hold of every command and every step: frames, the invariant on ERRCODE, and what changes
the operand and the result registers. First which fields a command leaves, then which registers, then steps, then the
statements.
-/

namespace Sys2Proof.Machine

open Sys2Proof.Claims

variable {s t : State} {i : Instr} {e : PortEvent} {rest : List PortEvent} {off v : Byte}

/-! ### The fields a command leaves (10_state.md section 7) -/

/-- Field by field, what command `i` leaves unchanged from `s` to `t`: with the write sets of R43, the fields of the
model's own. ERRCODE is in every write set. -/
structure CommandFrame (i : Instr) (s t : State) : Prop where
  channel : t.channel = s.channel
  pos : t.pos = s.pos
  din : t.din = s.din
  pduType : t.pduType = s.pduType
  mask : t.mask = s.mask
  pending : t.pending = s.pending
  replies : t.replies = s.replies
  needsReset : t.needsReset = s.needsReset
  dout : i ∉ [.rev, .cond, .pduCheck] → t.dout = s.dout
  crcEmb : i ≠ .validate → t.crcEmb = s.crcEmb
  crcCalc : i ≠ .validate → t.crcCalc = s.crcCalc
  crcAcc : i ∉ [.crcInit, .crcByte] → t.crcAcc = s.crcAcc
  key : i ∉ [.keyDerive, .decrypt] → t.key = s.key
  block : i ∉ [.condBlock, .decrypt, .validate] → t.block = s.block
  draws : i ∉ [.keyDerive, .decrypt] → t.draws = s.draws

theorem exec_frame (h : exec i s = .next t) : CommandFrame i s t := by
  obtain ⟨-, e, rfl⟩ | ⟨-, rfl⟩ | ⟨hi, d, rfl⟩ | ⟨rfl, d, rfl⟩ | ⟨rfl, b, rfl⟩ | ⟨rfl, k, n, rfl⟩ | ⟨rfl, b, k, n, rfl⟩ |
    ⟨rfl, b, e, c, rfl⟩ | ⟨hi, a, rfl⟩ := exec_next_cases h
  case inr.inr.inl =>
    simp only [List.mem_cons, List.not_mem_nil, or_false] at hi
    obtain rfl | rfl := hi <;> constructor <;> simp
  all_goals constructor <;> simp_all

/-! ### The registers a command leaves (R43) -/

/-- The registers that command `i` may write, STATUS and ERRCODE among them. Unmasking leaves the embedded CRC, which is
in BLOCK[0] to BLOCK[2]. -/
def commandWrites (i : Instr) : Reg → Bool
  | .status | .errcode => true
  | .dout => i ∈ [.rev, .cond, .pduCheck]
  | .crcEmb _ | .crcCalc _ => i = .validate
  | .crcAcc _ => i ∈ [.crcInit, .crcByte]
  | .key _ => i ∈ [.keyDerive, .decrypt]
  | .block j => i ∈ [.condBlock, .decrypt] ∨ (i = .validate ∧ 3 ≤ j.val)
  | .cmd | .channel | .pos | .din | .pduType | .mask _ _ | .reserved => false

theorem commandWrites_regAt (i : Instr) (off : Byte) : commandWrites i (regAt off) = writesOffset i off := by
  revert off
  cases i <;> decide +kernel

theorem exec_validate_block (h : exec .validate s = .next t) : t.block = unmask s.block := by
  rw [exec_validate, execValidate_eq] at h
  obtain rfl := (complete_eq_next _ _).mp h
  simp

theorem exec_readRegister_frame (h : exec i s = .next t) {r : Reg} (hr : commandWrites i r = false) :
    readRegister t r = readRegister s r := by
  have frame := exec_frame h
  cases r with
  | status | errcode => cases hr
  | cmd | reserved => rfl
  | channel => exact congrArg (BitVec.setWidth 8) frame.channel
  | pos => exact congrArg (BitVec.setWidth 8) frame.pos
  | din => exact frame.din
  | pduType => exact frame.pduType
  | mask c p => exact congrArg (fun m : MaskFile => (m[c])[p]) frame.mask
  | dout => exact frame.dout (of_decide_eq_false hr)
  | crcEmb j => exact congrArg (byteOf24 · j) (frame.crcEmb (of_decide_eq_false hr))
  | crcCalc j => exact congrArg (byteOf24 · j) (frame.crcCalc (of_decide_eq_false hr))
  | crcAcc j => exact congrArg (byteOf24 · j) (frame.crcAcc (of_decide_eq_false hr))
  | key j => exact congrArg (fun k : Chunk => k[j]) (frame.key (of_decide_eq_false hr))
  | block j =>
    obtain ⟨hi, hv⟩ := not_or.mp (of_decide_eq_false hr)
    show t.block[j] = s.block[j]
    by_cases hval : i = .validate
    · subst hval
      rw [exec_validate_block h]
      exact unmask_getElem_of_lt s.block (not_le.mp fun hj => hv ⟨rfl, hj⟩)
    · rw [frame.block (by simp_all)]

theorem exec_readWindow_frame (h : exec i s = .next t) (hoff : writesOffset i off = false) :
    readWindow t off = readWindow s off :=
  exec_readRegister_frame h ((commandWrites_regAt i off).trans hoff)

/-! ### Command bytes: what is left, and the code that is reported -/

theorem issueCommand_pending (h : issueCommand v s = .next t) : t.pending = s.pending := by
  obtain ⟨i, -, hi⟩ | ⟨-, rfl⟩ := issueCommand_next_cases h
  · exact (exec_frame hi).pending
  · rfl

/-- ERRCODE is seen in the two registers that NOP may write. -/
theorem readRegister_setErrcode {r : Reg} (hr : commandWrites .nop r = false) (s : State) (x : Byte) :
    readRegister (s.setErrcode x) r = readRegister s r := by
  cases r with
  | status | errcode => cases hr
  | _ => rfl

/-- A byte that names no command writes no more than NOP does. -/
theorem issueCommand_readWindow_frame (h : issueCommand v s = .next t) (hnop : writesOffset .nop off = false)
    (hoff : ∀ i, v = encode i → writesOffset i off = false) : readWindow t off = readWindow s off := by
  obtain ⟨i, hv, hi⟩ | ⟨-, rfl⟩ := issueCommand_next_cases h
  · exact exec_readWindow_frame hi (hoff i hv)
  · exact readRegister_setErrcode ((commandWrites_regAt .nop off).trans hnop) s 0x01

theorem errcodeLegal_iff (s : State) : s.errcodeLegal = true ↔ s.errcode.toNat ≤ 3 := decide_eq_true_iff

theorem issueCommand_errcodeLegal (h : issueCommand v s = .next t) : t.errcodeLegal = true := by
  rw [errcodeLegal_iff]
  obtain ⟨e, hissue, -⟩ | ⟨u, hissue, -⟩ := issueCommand_ends v s
  · obtain rfl := Host.Outcome.next.inj (hissue.symm.trans h)
    exact code_le_three e
  · obtain rfl := Host.Outcome.next.inj (hissue.symm.trans h)
    exact Nat.zero_le 3

/-! ### Steps (20_memory.md R57) -/

/-- Every one-byte transaction of the host is performed. -/
theorem exists_hostAccess_next (op : BusOp) (s : State) : ∃ t, hostAccess op s = .next t ∧ t.pending = s.pending := by
  cases op with
  | read off => exact ⟨_, rfl, rfl⟩
  | write off v =>
    by_cases h0 : off = 0x00
    · subst h0
      obtain ⟨t, hissue, -⟩ := exists_issueCommand_next_errcode v s
      exact ⟨t, (hostWrite_cmd s v).trans hissue, issueCommand_pending hissue⟩
    · obtain ⟨-, -, -, -, -, -, -, -, hpending, -⟩ := writeRegister_frame s (regAt off) v
      exact ⟨_, hostWrite_register s h0 v, hpending⟩

/-- What an offset reads is changed by no step but a reset, a power gate, a write to the offset that does not ignore it,
and a command that has the offset in its write set. -/
theorem step_readWindow_frame (hp : s.pending = e :: rest) (h : step s = .next t) (hr : e ≠ .reset)
    (hd : ∀ op, e ≠ .resetDuring op) (hg : e ≠ .powerGate) (hnop : writesOffset .nop off = false)
    (hwrite : (∀ v, e ≠ .access .host 1 (.write off v)) ∨ (regAt off).ignoresWrites = true)
    (hoff : ∀ i, e = .access .host 1 (.write 0x00 (encode i)) → writesOffset i off = false) :
    readWindow t off = readWindow s off := by
  have hs : readWindow (s.setPending rest) off = readWindow s off := readRegister_setPending s (regAt off) rest
  rw [step_cons s hp] at h
  rw [← hs]
  obtain ⟨off', -, rfl⟩ | ⟨off', v, he, -, rfl⟩ | ⟨v, he, hissue⟩ | ⟨he, -⟩ | ⟨op, he, -⟩ | ⟨he, -⟩ :=
    perform_next_cases _ h
  · exact readRegister_setReplies ..
  · by_cases hsame : off = off'
    · subst hsame
      have hignored := hwrite.resolve_left fun hne => hne v he
      rw [writeWindow_eq, writeRegister_of_ignoresWrites hignored]
    · exact readWindow_writeWindow_of_ne hsame _ v
  · exact issueCommand_readWindow_frame hissue hnop fun i hi => hoff i (hi ▸ he)
  · exact absurd he hr
  · exact absurd he (hd op)
  · exact absurd he hg

/-! ### The statements -/

/-- Settles O42: a command byte reports one of the four codes, reset 0x00, and every other event leaves ERRCODE. -/
theorem stepKeepsErrcodeLegal : Obligations.StepKeepsErrcodeLegal := by
  unfold Obligations.StepKeepsErrcodeLegal
  intro s t hs h
  cases hp : s.pending with
  | nil =>
    obtain rfl := Host.Outcome.next.inj ((step_nil s hp).symm.trans h)
    exact hs
  | cons e rest =>
    rw [step_cons s hp] at h
    obtain ⟨off, -, rfl⟩ | ⟨off, v, -, -, rfl⟩ | ⟨v, -, hissue⟩ | ⟨-, rfl⟩ | ⟨op, -, rfl⟩ | ⟨-, rfl⟩ :=
      perform_next_cases _ h
    · exact hs
    · rw [errcodeLegal_iff, writeWindow_eq, writeRegister_errcode]
      exact (errcodeLegal_iff s).mp hs
    · exact issueCommand_errcodeLegal hissue
    · rfl
    · rfl
    · exact hs

/-- Settles O43: the code at reset is 0x00. -/
theorem resetErrcodeIsLegal : Obligations.ResetErrcodeIsLegal := rfl

/-- Settles O14: every admitted access is a one-byte transaction of the host, and the other events need no reset first. -/
theorem admittedEventsArePerformed : Obligations.AdmittedEventsArePerformed := by
  unfold Obligations.AdmittedEventsArePerformed
  intro s e rest hp hadmitted hready
  rw [step_cons s hp]
  cases e with
  | access m size op =>
    have hn : s.needsReset = false := hready.resolve_right fun hne => hne m size op rfl
    cases m with
    | other => cases hadmitted
    | host =>
      obtain rfl : size = 1 := beq_iff_eq.mp hadmitted
      have haccess := (busAccess_host (s.setPending rest) op hn).trans (if_pos rfl)
      obtain ⟨t, ht, hpending⟩ := exists_hostAccess_next op (s.setPending rest)
      exact ⟨t, haccess.trans ht, hpending⟩
  | reset => exact ⟨_, rfl, rfl⟩
  | resetDuring op => exact ⟨_, rfl, rfl⟩
  | powerGate => exact ⟨_, rfl, rfl⟩

/-- Settles O37: the window by the registers a command leaves, the rest by the fields it leaves. -/
theorem commandsKeepToTheirWriteSets : Obligations.CommandsKeepToTheirWriteSets := by
  unfold Obligations.CommandsKeepToTheirWriteSets
  intro i s t h
  have frame := exec_frame h
  refine ⟨fun off => exec_readWindow_frame h, exec_valid_frame h, fun hi => exec_pduMatch_frame h (.inl hi),
    fun hk hd => ⟨exec_keyState_frame h hk hd, frame.draws (by simp [hk, hd])⟩, frame.pending, frame.replies,
    frame.needsReset⟩

end Sys2Proof.Machine
end

section
/-!
Proofs of the statements on the register window and on single events at the port: the register map, what the window
shows, what changes the operand and the result registers, and one event of each kind. First the offsets of the registers
and what is read there, then which fields the reads determine, then the statements.
-/

namespace Sys2Proof.Machine

open Sys2Proof.Claims

variable {s t : State} {e : PortEvent} {rest : List PortEvent}

/-! ### The offsets of the register files (10_state.md R22) -/

theorem regAt_crcEmb (i : Fin 3) : regAt (BitVec.ofNat 8 (0x08 + i)) = .crcEmb i := by
  revert i
  decide

theorem regAt_crcCalc (i : Fin 3) : regAt (BitVec.ofNat 8 (0x0C + i)) = .crcCalc i := by
  revert i
  decide

theorem regAt_crcAcc (i : Fin 3) : regAt (BitVec.ofNat 8 (0x10 + i)) = .crcAcc i := by
  revert i
  decide

theorem regAt_key (i : Fin 16) : regAt (BitVec.ofNat 8 (0x20 + i)) = .key i := by
  revert i
  decide

theorem regAt_block (i : Fin 16) : regAt (BitVec.ofNat 8 (0x30 + i)) = .block i := by
  revert i
  decide

theorem regAt_mask (c : Fin 3) (p : Fin 17) : regAt (BitVec.ofNat 8 (0x40 + 0x20 * c + p)) = .mask c p := by
  revert c p
  decide +kernel

/-- The address map and the offsets of the registers are inverse, but for the reserved offsets. -/
theorem regAt_eq_iff {r : Reg} (hr : r ≠ .reserved) (off : Byte) : regAt off = r ↔ r.offset = some off := by
  refine ⟨fun h => h ▸ offset_regAt off (h ▸ hr), fun h => ?_⟩
  cases r with
  | reserved => exact absurd rfl hr
  | crcEmb i => exact Option.some.inj h ▸ regAt_crcEmb i
  | crcCalc i => exact Option.some.inj h ▸ regAt_crcCalc i
  | crcAcc i => exact Option.some.inj h ▸ regAt_crcAcc i
  | key i => exact Option.some.inj h ▸ regAt_key i
  | block i => exact Option.some.inj h ▸ regAt_block i
  | mask c p => exact Option.some.inj h ▸ regAt_mask c p
  | cmd | status | errcode | channel | pos | din | dout | pduType => exact Option.some.inj h ▸ rfl

theorem readWindow_key (s : State) (i : Fin 16) : readWindow s (BitVec.ofNat 8 (0x20 + i)) = s.key[i] := by
  rw [readWindow_eq, regAt_key, readRegister]

theorem readWindow_block (s : State) (i : Fin 16) : readWindow s (BitVec.ofNat 8 (0x30 + i)) = s.block[i] := by
  rw [readWindow_eq, regAt_block, readRegister]

theorem readWindow_mask (s : State) (c : Fin 3) (p : Fin 17) :
    readWindow s (BitVec.ofNat 8 (0x40 + 0x20 * c + p)) = (s.mask[c])[p] := by
  rw [readWindow_eq, regAt_mask, readRegister, maskByte]

/-! ### Fields that the reads determine (20_memory.md R57) -/

theorem setWidth_eight_injective {n : Nat} (hn : n ≤ 8) {a b : BitVec n} (h : a.setWidth 8 = b.setWidth 8) :
    a = b := by
  simpa [BitVec.setWidth_setWidth_of_le, hn] using congrArg (BitVec.setWidth n) h

theorem channel_eq_of_readWindow_eq (h : readWindow s 0x03 = readWindow t 0x03) : s.channel = t.channel :=
  setWidth_eight_injective (by decide) h

theorem pos_eq_of_readWindow_eq (h : readWindow s 0x04 = readWindow t 0x04) : s.pos = t.pos :=
  setWidth_eight_injective (by decide) h

/-- VALID and PDU_MATCH are bits 0 and 1 of STATUS (R24). -/
theorem flags_eq_of_readWindow_eq (h : readWindow s 0x01 = readWindow t 0x01) :
    s.valid = t.valid ∧ s.pduMatch = t.pduMatch := by
  have hbit (k : Nat) : (status s).getLsbD k = (status t).getLsbD k := congrArg (BitVec.getLsbD · k) h
  exact ⟨(status_getLsbD s 0).symm.trans ((hbit 0).trans (status_getLsbD t 0)),
    (status_getLsbD s 1).symm.trans ((hbit 1).trans (status_getLsbD t 1))⟩

/-- A 24-bit register is the join of its three bytes (20_memory.md R53). -/
theorem eq_of_byteOf24_eq {w w' : Word24} (h : ∀ i, byteOf24 w i = byteOf24 w' i) : w = w' := by
  rw [← byteOf24_join w, ← byteOf24_join w', h 0, h 1, h 2]

theorem crcEmb_eq_of_readWindow_eq
    (h : ∀ i : Fin 3, readWindow s (BitVec.ofNat 8 (0x08 + i)) = readWindow t (BitVec.ofNat 8 (0x08 + i))) :
    s.crcEmb = t.crcEmb :=
  eq_of_byteOf24_eq fun i => by simpa [regAt_crcEmb, readRegister] using h i

theorem crcCalc_eq_of_readWindow_eq
    (h : ∀ i : Fin 3, readWindow s (BitVec.ofNat 8 (0x0C + i)) = readWindow t (BitVec.ofNat 8 (0x0C + i))) :
    s.crcCalc = t.crcCalc :=
  eq_of_byteOf24_eq fun i => by simpa [regAt_crcCalc, readRegister] using h i

theorem crcAcc_eq_of_readWindow_eq
    (h : ∀ i : Fin 3, readWindow s (BitVec.ofNat 8 (0x10 + i)) = readWindow t (BitVec.ofNat 8 (0x10 + i))) :
    s.crcAcc = t.crcAcc :=
  eq_of_byteOf24_eq fun i => by simpa [regAt_crcAcc, readRegister] using h i

theorem sameVisible_of_readWindow_eq (h : ∀ off, readWindow s off = readWindow t off) : SameVisible s t := by
  obtain ⟨hvalid, hmatch⟩ := flags_eq_of_readWindow_eq (h 0x01)
  refine ⟨channel_eq_of_readWindow_eq (h 0x03), pos_eq_of_readWindow_eq (h 0x04), h 0x05, h 0x06, h 0x07, h 0x02, hvalid,
    hmatch, crcEmb_eq_of_readWindow_eq fun _ => h _, crcCalc_eq_of_readWindow_eq fun _ => h _,
    crcAcc_eq_of_readWindow_eq fun _ => h _, ?_, ?_, ?_⟩
  · refine Vector.ext fun i hi => ?_
    have hread := h (BitVec.ofNat 8 (0x20 + i))
    rwa [readWindow_key s ⟨i, hi⟩, readWindow_key t ⟨i, hi⟩] at hread
  · refine Vector.ext fun i hi => ?_
    have hread := h (BitVec.ofNat 8 (0x30 + i))
    rwa [readWindow_block s ⟨i, hi⟩, readWindow_block t ⟨i, hi⟩] at hread
  · refine Vector.ext fun c hc => Vector.ext fun p hp => ?_
    have hread := h (BitVec.ofNat 8 (0x40 + 0x20 * c + p))
    rwa [readWindow_mask s ⟨c, hc⟩ ⟨p, hp⟩, readWindow_mask t ⟨c, hc⟩ ⟨p, hp⟩] at hread

theorem readRegister_eq_of_sameVisible (h : SameVisible s t) (r : Reg) : readRegister s r = readRegister t r := by
  obtain ⟨hchannel, hpos, hdin, hdout, hpdu, herrcode, hvalid, hmatch, hemb, hcalc, hacc, hkey, hblock, hmask⟩ := h
  cases r <;> simp only [readRegister, status, State.err, maskByte, hchannel, hpos, hdin, hdout, hpdu, herrcode, hvalid,
    hmatch, hemb, hcalc, hacc, hkey, hblock, hmask]

/-! ### Registers that hold what is written (10_state.md sections 3 and 4) -/

/-- The registers that keep all eight bits written to them. -/
def Reg.holdsFullByte : Reg → Bool
  | .din | .pduType | .key _ | .block _ | .mask _ _ => true
  | .cmd | .status | .errcode | .channel | .pos | .dout | .crcEmb _ | .crcCalc _ | .crcAcc _ | .reserved => false

theorem regAt_holdsFullByte (off : Byte) : (regAt off).holdsFullByte = fullByteOffset off := by
  revert off
  decide +kernel

theorem readRegister_writeRegister_same {r : Reg} (h : r.holdsFullByte = true) (s : State) (v : Byte) :
    readRegister (writeRegister s r v) r = v := by
  cases r with
  | din | pduType => rfl
  | key i | block i => exact Vector.getElem_set_self i.isLt
  | mask c p => simp [writeRegister, readRegister, maskByte]
  | cmd | status | errcode | channel | pos | dout | crcEmb | crcCalc | crcAcc | reserved => cases h

/-- A host write to a register other than CMD is a plain write to it. -/
theorem step_writeRegister {off v : Byte} {r : Reg} (h : HostNext s (.write off v) rest) (hoff : regAt off = r)
    (hr : r ≠ .cmd) : step s = .next (writeRegister (s.setPending rest) r v) := by
  subst hoff
  exact step_hostWrite_register h fun h0 => hr ((regAt_eq_cmd off).mpr h0)

theorem channel_write_reads_masked (v : Byte) : (v.extractLsb' 0 2).setWidth 8 = v &&& 0x03 := by
  revert v
  decide +kernel

theorem pos_write_reads_masked (v : Byte) : (v.extractLsb' 0 5).setWidth 8 = v &&& 0x1F := by
  revert v
  decide +kernel

/-! ### The statements -/

/-- Settles O10: each field is read at its offsets, and no register reads anything else. -/
theorem windowShowsAllButKeyState : Obligations.WindowShowsAllButKeyState := by
  unfold Obligations.WindowShowsAllButKeyState
  exact fun s t => ⟨sameVisible_of_readWindow_eq, fun h off => readRegister_eq_of_sameVisible h (regAt off)⟩

/-- Settles O40: no command has an operand register in its write set, so that only a write to its offset is left. -/
theorem operandsChangeOnlyByTheHost : Obligations.OperandsChangeOnlyByTheHost := by
  unfold Obligations.OperandsChangeOnlyByTheHost
  intro s t e rest hp h hr hd hg
  have frame {off : Byte} (hoff : ∀ i, commandWrites i (regAt off) = false)
      (hwrite : ∀ v, e ≠ .access .host 1 (.write off v)) : readWindow t off = readWindow s off :=
    have hsets i := (commandWrites_regAt i off).symm.trans (hoff i)
    step_readWindow_frame hp h hr hd hg (hsets .nop) (.inl hwrite) fun i _ => hsets i
  refine ⟨fun hw => ?_, fun hw => ?_, frame fun _ => rfl, frame fun _ => rfl, fun c p hw => ?_⟩
  · exact channel_eq_of_readWindow_eq (frame (fun _ => rfl) hw)
  · exact pos_eq_of_readWindow_eq (frame (fun _ => rfl) hw)
  · have hread := frame (fun i => by rw [regAt_mask, commandWrites]) hw
    rwa [readWindow_mask, readWindow_mask] at hread

/-- Settles O41: the result registers ignore writes, so that only the commands with them in their write sets are left. -/
theorem resultsChangeOnlyByTheirCommands : Obligations.ResultsChangeOnlyByTheirCommands := by
  unfold Obligations.ResultsChangeOnlyByTheirCommands
  intro s t e rest hp h hr hd hg
  have frame {off : Byte} {r : Reg} (hreg : regAt off = r) (hnop : commandWrites .nop r = false)
      (hignored : r.ignoresWrites = true)
      (hcmd : ∀ i, e = .access .host 1 (.write 0x00 (encode i)) → commandWrites i r = false) :
      readWindow t off = readWindow s off := by
    subst hreg
    simp only [commandWrites_regAt] at hnop hcmd
    exact step_readWindow_frame hp h hr hd hg hnop (.inr hignored) hcmd
  refine ⟨fun hne => ?_, fun hne => ?_, fun hne => ?_⟩
  · refine frame (off := 0x06) rfl rfl rfl fun i hi => decide_eq_false fun hmem => ?_
    exact hne (encode i) (List.mem_map_of_mem (f := encode) hmem) hi
  · have hcmd i (hi : e = .access .host 1 (.write 0x00 (encode i))) : decide (i = .validate) = false :=
      decide_eq_false fun hval => hne (by rw [hi, hval]; rfl)
    exact ⟨crcEmb_eq_of_readWindow_eq fun k => frame (regAt_crcEmb k) rfl rfl hcmd,
      crcCalc_eq_of_readWindow_eq fun k => frame (regAt_crcCalc k) rfl rfl hcmd⟩
  · refine crcAcc_eq_of_readWindow_eq fun k => ?_
    refine frame (regAt_crcAcc k) rfl rfl fun i hi => decide_eq_false fun hmem => ?_
    exact hne (encode i) (List.mem_map_of_mem (f := encode) hmem) hi

/-- Settles O3: the map by the offsets of the registers, then what is read at each. -/
theorem offsetsAreTheRegisterMap : Obligations.OffsetsAreTheRegisterMap := by
  unfold Obligations.OffsetsAreTheRegisterMap
  exact ⟨rfl, rfl, rfl, rfl, rfl, rfl, rfl, rfl, fun i => ⟨regAt_crcEmb i, regAt_crcCalc i, regAt_crcAcc i⟩,
    fun i => ⟨regAt_key i, regAt_block i⟩, regAt_mask, fun off => (reservedOffset_iff off).symm,
    fun _ off hr => regAt_eq_iff hr off, fun s => ⟨rfl, rfl, rfl, rfl, rfl, rfl, rfl,
      fun i => ⟨readWindow_key s i, readWindow_block s i⟩, readWindow_mask s⟩⟩

/-- Settles O5: the step stores the byte by `writeRegister` in the register at the offset. -/
theorem writableRegistersHoldWhatIsWritten : Obligations.WritableRegistersHoldWhatIsWritten := by
  unfold Obligations.WritableRegistersHoldWhatIsWritten
  refine ⟨fun s off v rest hn => ⟨fun hfull => ?_, ?_, ?_⟩, fun s v rest => ⟨?_, ?_, ?_, ?_, fun i hn => ?_, fun i hn => ?_,
    fun c p hn => ?_⟩⟩
  · have hholds := (regAt_holdsFullByte off).trans hfull
    have hcmd : regAt off ≠ .cmd := fun e => by simp [e, Reg.holdsFullByte] at hholds
    exact ⟨_, step_writeRegister hn rfl hcmd, readRegister_writeRegister_same hholds (s.setPending rest) v⟩
  · rintro rfl
    exact ⟨_, step_writeRegister hn rfl nofun, channel_write_reads_masked v⟩
  · rintro rfl
    exact ⟨_, step_writeRegister hn rfl nofun, pos_write_reads_masked v⟩
  · exact fun hn => step_writeRegister (r := .channel) hn rfl nofun
  · exact fun hn => step_writeRegister (r := .pos) hn rfl nofun
  · exact fun hn => step_writeRegister (r := .din) hn rfl nofun
  · exact fun hn => step_writeRegister (r := .pduType) hn rfl nofun
  · exact step_writeRegister hn (regAt_key i) nofun
  · exact step_writeRegister hn (regAt_block i) nofun
  · exact step_writeRegister hn (regAt_mask c p) nofun

/-- Settles O2: both reset events are performed by `resetBlock`. -/
theorem resetEventRestoresResetValues : Obligations.ResetEventRestoresResetValues := by
  unfold Obligations.ResetEventRestoresResetValues
  intro s e rest hp he
  rw [step_cons s hp]
  obtain rfl | ⟨op, rfl⟩ := he
  · rfl
  · rfl

/-- Settles O11: the size is looked at once the master and the power gate are. -/
theorem otherSizesAndMastersAreRefused : Obligations.OtherSizesAndMastersAreRefused := by
  unfold Obligations.OtherSizesAndMastersAreRefused
  refine fun s size op rest => ⟨fun hp hn => ?_, step_cons s⟩
  have hstep : step s = if size = 1 then hostAccess op (s.setPending rest) else .refused (.accessSize size) :=
    (step_cons s hp).trans (busAccess_host (s.setPending rest) op hn)
  refine ⟨fun hsize => by rw [hstep, if_neg hsize], fun hsize => ?_⟩
  obtain ⟨t, ht, hpending⟩ := exists_hostAccess_next op (s.setPending rest)
  exact ⟨t, by rw [hstep, if_pos hsize, ht], hpending⟩

/-- Settles O12: the flag that a power gate sets is looked at before any access of the host, and reset clears it. -/
theorem powerGateNeedsReset : Obligations.PowerGateNeedsReset := by
  unfold Obligations.PowerGateNeedsReset
  refine fun s rest => ⟨step_cons s, fun size op hp hn => ?_, fun hp => ⟨_, step_cons s hp, rfl⟩⟩
  exact (step_cons s hp).trans (if_pos hn)

/-- Settles O13: with nothing pending there is no event to perform. -/
theorem idleBlockKeepsItsState : Obligations.IdleBlockKeepsItsState := step_nil

/-- Settles O18: a write to CMD issues the byte, and the byte is decoded. -/
theorem stepRunsTheDecodedCommand : Obligations.StepRunsTheDecodedCommand := by
  unfold Obligations.StepRunsTheDecodedCommand
  exact fun s v i rest hn hd =>
    calc step s = hostWrite 0x00 v (s.setPending rest) := step_of_hostNext hn
      _ = issueCommand v (s.setPending rest) := hostWrite_cmd _ v
      _ = exec i (s.setPending rest) := issueCommand_of_decode_ok hd _

end Sys2Proof.Machine
end

section
/-!
Proofs of the statements on single commands and their bytes: the decoder and its table, operands that are not used, drawn
values, and conditioning and its inverses. First what the statements need of bytes, chunks and commands, then the
statements.
-/

namespace Sys2Proof.Machine

open Sys2Proof.Claims

variable {s t : State} {i : Instr}

/-! ### The decoder and the summary table (30_encoding.md R84) -/

theorem decode_eq_ok_iff (v : Byte) (i : Instr) : decode v = .ok i ↔ v = encode i :=
  ⟨eq_encode_of_decode, fun h => h ▸ decode_encode i⟩

theorem commandTable_eq : commandTable = opcodeMap.map fun i => ⟨i, 0xFF, encode i⟩ := by decide

theorem mem_opcodeMap (i : Instr) : i ∈ opcodeMap := by cases i <;> decide

/-- Every row has a full mask, so that the only byte that fits is its pattern. -/
theorem exists_row_fits_iff (v : Byte) (i : Instr) :
    (∃ r ∈ commandTable, r.command = i ∧ r.fits v = true) ↔ v = encode i := by
  have hmask : v &&& 255#8 = v := BitVec.and_allOnes
  simp [commandTable_eq, TableRow.fits, mem_opcodeMap, hmask]

theorem isOk_decode (v : Byte) : (decode v).isOk = commandByteOk v := by
  revert v
  decide +kernel

theorem exists_decode_eq_ok_iff (v : Byte) : (∃ i, decode v = .ok i) ↔ commandByteOk v = true := by
  rw [← isOk_decode]
  cases decode v <;> simp [Except.isOk, Except.toBool]

theorem decodeTableWord_encode (i : Instr) : decodeTableWord 8 (encode i).toNat = some i := by
  cases i <;> rfl

/-! ### Operands that a command does not use (30_encoding.md R82, R83) -/

theorem decryptBlock_setChannel_setPos (s : State) (c : BitVec 2) (p : BitVec 5) :
    decryptBlock ((s.setChannel c).setPos p) = ((decryptBlock s).setChannel c).setPos p := by
  rw [decryptBlock, decryptBlock, State.setPos_keyState, State.setChannel_keyState]
  cases s.keyState <;> rfl

/-- The commands that do not read CHANNEL do not read POS either. -/
theorem exec_setChannel_setPos (hi : i ∉ [.cond, .pduCheck, .condBlock]) (h : exec i s = .next t) (c : BitVec 2)
    (p : BitVec 5) : exec i ((s.setChannel c).setPos p) = .next ((t.setChannel c).setPos p) := by
  cases i with
  | cond | pduCheck | condBlock => simp at hi
  | nop | rev | validate | crcInit | crcByte =>
    obtain rfl := Host.Outcome.next.inj h
    rfl
  | keyDerive =>
    rw [exec_keyDerive, execKeyDerive] at h ⊢
    rw [State.setPos_keyState, State.setChannel_keyState]
    cases hk : s.keyState <;> rw [hk] at h <;>
      · obtain rfl := Host.Outcome.next.inj h
        rfl
  | decrypt =>
    obtain rfl := (complete_eq_next _ _).mp h
    rw [exec_decrypt, execDecrypt, decryptBlock_setChannel_setPos]
    rfl

theorem exec_setChannel (hi : i ∉ [.cond, .pduCheck, .condBlock]) (h : exec i s = .next t) (c : BitVec 2) :
    exec i (s.setChannel c) = .next (t.setChannel c) := by
  have hpos : (t.setChannel c).setPos s.pos = t.setChannel c := by rw [← (exec_frame h).pos]; rfl
  exact (exec_setChannel_setPos hi h c s.pos).trans (congrArg _ hpos)

/-- PDU_CHECK and COND_BLOCK read CHANNEL alone (R83). -/
theorem exec_setPos (hi : i ≠ .cond) (h : exec i s = .next t) (p : BitVec 5) :
    exec i (s.setPos p) = .next (t.setPos p) := by
  by_cases hchannel : i ∈ [.cond, .pduCheck, .condBlock]
  · obtain ⟨c, hc, -⟩ | ⟨hc, -⟩ := selectedChannel_cases s
    · simp only [List.mem_cons, List.not_mem_nil, or_false, hi, false_or] at hchannel
      obtain rfl | rfl := hchannel
      · obtain rfl := Host.Outcome.next.inj ((exec_pduCheck_of_channel hc).symm.trans h)
        exact exec_pduCheck_of_channel (s := s.setPos p) hc
      · obtain rfl := Host.Outcome.next.inj ((exec_condBlock_of_channel hc).symm.trans h)
        exact exec_condBlock_of_channel (s := s.setPos p) hc
    · obtain rfl := Host.Outcome.next.inj ((exec_of_channel_eq_three hchannel hc).symm.trans h)
      exact exec_of_channel_eq_three (s := s.setPos p) hchannel hc
  · have hself : t.setChannel s.channel = t := by rw [← (exec_frame h).channel]; rfl
    exact (exec_setChannel_setPos hchannel h s.channel p).trans (by rw [hself])

/-! ### Drawn values (00_scope.md section 4) -/

theorem exec_keyDerive_of_raw (hk : s.keyState = .raw) :
    exec .keyDerive s = .next (((s.setKey (deriveStart s.key)).setKeyState .start).setErrcode 0x00) := by
  obtain ⟨-, e⟩ | ⟨hne, -⟩ := execKeyDerive_cases s
  · exact e
  · exact absurd hk hne

theorem exec_keyDerive_of_ne_raw (hk : s.keyState ≠ .raw) :
    exec .keyDerive s = .next (((drawKey s).setKeyState .spent).setErrcode 0x00) := by
  obtain ⟨hraw, -⟩ | ⟨-, e⟩ := execKeyDerive_cases s
  · exact absurd hraw hk
  · exact e

theorem exec_decrypt_of_start (hk : s.keyState = .start) :
    exec .decrypt s = .next (((drawKey (s.setBlock (invCipher s.block s.key).1)).setKeyState .spent).setErrcode 0x00) := by
  obtain ⟨-, e⟩ | ⟨hne, -⟩ := execDecrypt_cases s
  · exact e
  · exact absurd hk hne

theorem exec_decrypt_of_ne_start (hk : s.keyState ≠ .start) :
    exec .decrypt s = .next (((drawKey (drawBlock s)).setKeyState .spent).setErrcode 0x00) := by
  obtain ⟨hstart, -⟩ | ⟨-, e⟩ := execDecrypt_cases s
  · exact absurd hstart hk
  · exact e

/-! ### Conditioning and its inverses (40_conditioning.md section 3) -/

theorem rev8_rev8 (x : Byte) : rev8 (rev8 x) = x := by
  revert x
  decide +kernel

theorem rev8_xor (x y : Byte) : rev8 (x ^^^ y) = rev8 x ^^^ rev8 y := by
  refine BitVec.eq_of_getLsbD_eq fun k hk => ?_
  have hbit (z : Byte) : (rev8 z).getLsbD k = z.getLsbD (7 - k) := by
    have h7 : 7 - (7 - k) = k := by omega
    simpa only [h7] using rev8_getLsbD z (k := 7 - k) (by omega)
  simp only [hbit, BitVec.getLsbD_xor]

theorem conditionByte_conditionByte (x m : Byte) : conditionByte (conditionByte x m) m = x ^^^ rev8 m ^^^ m := by
  rw [conditionByte, conditionByte, rev8_xor, rev8_rev8]

theorem conditionByte_unconditionByte (y m : Byte) : conditionByte (unconditionByte y m) m = y := by
  rw [conditionByte, unconditionByte, rev8_rev8, BitVec.xor_assoc, BitVec.xor_self, BitVec.xor_zero]

theorem conditionChunk_unconditionChunk (b : Chunk) (table : MaskTable) :
    conditionChunk (unconditionChunk b table) table = b := by
  refine Vector.ext fun i hi => ?_
  rw [conditionChunk_getElem, unconditionChunk_getElem, conditionByte_unconditionByte]

theorem xor_xor_eq_self_iff (x a b : Byte) : x ^^^ a ^^^ b = x ↔ a = b := by
  rw [BitVec.xor_assoc, xor_left_eq_self_iff]
  exact BitVec.xor_eq_zero_iff

/-! ### The statements -/

/-- Settles O16: a command byte is the encoding of its command, and a row of the table fits its pattern alone. -/
theorem decodeEncodeAndTableAgree : Obligations.DecodeEncodeAndTableAgree := by
  unfold Obligations.DecodeEncodeAndTableAgree
  exact fun v i => ⟨decode_eq_ok_iff v i, (decode_eq_ok_iff v i).trans (exists_row_fits_iff v i).symm,
    exists_decode_eq_ok_iff v, decodeTableWord_encode i⟩

/-- Settles O24: a command commutes with setting an operand that it does not read. -/
theorem unusedOperandsAreIgnored : Obligations.UnusedOperandsAreIgnored := by
  unfold Obligations.UnusedOperandsAreIgnored
  refine fun i s t h => ⟨fun hi => exec_setPos hi h, fun hc hp hb => exec_setChannel ?_ h⟩
  simp [hc, hp, hb]

/-- Settles O32: the drawn chunk is 16 free bytes from the counter on, and the counter goes up by 16 at each draw. -/
theorem drawnValuesAreFreeBytes : Obligations.DrawnValuesAreFreeBytes := by
  unfold Obligations.DrawnValuesAreFreeBytes
  refine fun s => ⟨fun hk => ?_, fun hk => ?_, fun hk => ?_⟩
  · exact ⟨_, exec_keyDerive_of_ne_raw hk, rfl, fun i => drawChunk_getElem s i i.isLt⟩
  · exact ⟨_, exec_decrypt_of_start hk, rfl, fun i => drawChunk_getElem s i i.isLt⟩
  · exact ⟨_, exec_decrypt_of_ne_start hk, rfl, fun i =>
      ⟨drawChunk_getElem s i i.isLt, drawChunk_getElem (drawBlock s) i i.isLt⟩⟩

/-- Settles O33: KEY_DERIVE from RAW computes its key, and no command but KEY_DERIVE and DECRYPT draws. -/
theorem disciplineDrawsNothing : Obligations.DisciplineDrawsNothing := by
  unfold Obligations.DisciplineDrawsNothing
  intro i s t hdiscipline hdecrypt h
  by_cases hi : i = .keyDerive
  · subst hi
    obtain rfl := Host.Outcome.next.inj ((exec_keyDerive_of_raw (beq_iff_eq.mp hdiscipline)).symm.trans h)
    simp
  · exact (exec_frame h).draws (by simp [hi, hdecrypt])

/-- Settles O44: reversal is additive and undoes itself, so that the two masks do not meet the same way round. -/
theorem conditioningTwiceIsNoInverse : Obligations.ConditioningTwiceIsNoInverse := by
  unfold Obligations.ConditioningTwiceIsNoInverse
  intro s c p hc hp
  have hmask := selectedMaskByte_ok hc hp
  refine ⟨_, _, exec_cond_of_maskByte hmask, exec_cond_of_maskByte hmask, ?_⟩
  have htwice := conditionByte_conditionByte s.din (maskByte s c p)
  exact ⟨htwice, htwice ▸ xor_xor_eq_self_iff ..⟩

/-- Settles O45: each byte conditions to the byte that the transmitter reversed and whitened. -/
theorem condBlockUndoesTheTransmitter : Obligations.CondBlockUndoesTheTransmitter := by
  unfold Obligations.CondBlockUndoesTheTransmitter
  intro s c b hc hblock
  have hchunk : conditionChunk s.block s.mask[c] = b := by rw [hblock, conditionChunk_unconditionChunk]
  exact (exec_condBlock_of_channel hc).trans (by rw [hchunk]; rfl)

end Sys2Proof.Machine
end

section
/-!
Proofs of the statements on AES as a whole (41_aes.md sections 1, 4 and 5): the field, the schedule run both ways, and that
the inverse cipher undoes the forward one. First each step of a round and its inverse, then the runs of rounds by
induction on their round constants, then the statements.
-/

namespace Sys2Proof.Machine

/-! ### The field (R101 to R103) -/

theorem gmul_ginv {x : Byte} (hx : x ≠ 0) : gmul x (ginv x) = 1 := by
  revert x
  decide +kernel

theorem half_xtime (a : Byte) : half (xtime a) = a := by
  revert a
  decide +kernel

theorem xtime_half (a : Byte) : xtime (half a) = a := by
  revert a
  decide +kernel

/-! ### The schedule both ways (R109, R110) -/

theorem keyWord_expandBack_zero (k : Chunk) (rc : Byte) :
    keyWord (expandBack k rc) 0 = keyWord k 0 ^^^ scheduleCore (keyWord k 3 ^^^ keyWord k 2) rc :=
  keyWord_ofKeyWords _ 0

/-- Each later word was its neighbour's sum. -/
theorem keyWord_expandBack_succ (k : Chunk) (rc : Byte) (j : Fin 3) :
    keyWord (expandBack k rc) j.succ = keyWord k j.succ ^^^ keyWord k j.castSucc := by
  simp only [expandBack, keyWord_ofKeyWords]
  fin_cases j <;> rfl

theorem xor_xor_cancel_right {n : Nat} (x y : BitVec n) : x ^^^ y ^^^ y = x := by
  rw [BitVec.xor_assoc, BitVec.xor_self, BitVec.xor_zero]

theorem expandBack_expandStep (k : Chunk) (rc : Byte) : expandBack (expandStep k rc) rc = k := by
  have hsucc (j : Fin 3) : keyWord (expandBack (expandStep k rc) rc) j.succ = keyWord k j.succ := by
    rw [keyWord_expandBack_succ, keyWord_expandStep_succ, xor_xor_cancel_right]
  refine eq_of_keyWord_eq (Fin.cases ?_ hsucc)
  have hlast : keyWord (expandStep k rc) 3 ^^^ keyWord (expandStep k rc) 2 = keyWord k 3 :=
    (keyWord_expandBack_succ _ rc 2).symm.trans (hsucc 2)
  rw [keyWord_expandBack_zero, hlast, keyWord_expandStep_zero, xor_xor_cancel_right]

theorem expandStep_expandBack (k : Chunk) (rc : Byte) : expandStep (expandBack k rc) rc = k := by
  have hzero : keyWord (expandStep (expandBack k rc) rc) 0 = keyWord k 0 := by
    have hlast : keyWord (expandBack k rc) 3 = keyWord k 3 ^^^ keyWord k 2 := keyWord_expandBack_succ k rc 2
    rw [keyWord_expandStep_zero, keyWord_expandBack_zero, hlast, xor_xor_cancel_right]
  refine eq_of_keyWord_eq (Fin.induction hzero fun j ih => ?_)
  rw [keyWord_expandStep_succ, ih, keyWord_expandBack_succ, xor_xor_cancel_right]

/-- A run of backward steps undoes the run of forward steps with the constants the other way round. -/
theorem foldl_expandBack_foldl_expandStep (rcs : List Byte) (k : Chunk) :
    rcs.reverse.foldl expandBack (rcs.foldl expandStep k) = k := by
  induction rcs generalizing k with
  | nil => rfl
  | cons rc rcs ih =>
    simp only [List.reverse_cons, List.foldl_append, List.foldl_cons, List.foldl_nil, ih, expandBack_expandStep]

/-- `j` backward steps leave all but the last `j` forward ones. -/
theorem foldl_take_expandBack (rcs : List Byte) (k : Chunk) (j : Nat) :
    (rcs.reverse.take j).foldl expandBack (rcs.foldl expandStep k) =
      (rcs.take (rcs.length - j)).foldl expandStep k := by
  have hsplit : rcs.foldl expandStep k =
      (rcs.drop (rcs.length - j)).foldl expandStep ((rcs.take (rcs.length - j)).foldl expandStep k) := by
    rw [← List.foldl_append, List.take_append_drop]
  rw [hsplit, List.take_reverse, foldl_expandBack_foldl_expandStep]

theorem deriveStart_eq (k : Chunk) : deriveStart k = rconFwd.foldl expandStep k := by
  rw [deriveStart]

theorem rconBack_eq : rconBack = rconFwd.reverse := rfl

/-! ### The steps of a round and their inverses (R112 to R115) -/

theorem invShiftRows_shiftRows (st : Chunk) : invShiftRows (shiftRows st) = st := by
  refine eq_of_cell_eq fun r c => ?_
  rw [cell_invShiftRows, shiftRows, cell_ofCells, sub_add_cancel]

theorem invSubBytes_subBytes (st : Chunk) : invSubBytes (subBytes st) = st := by
  refine Vector.ext fun i hi => ?_
  rw [invSubBytes, subBytes, Vector.getElem_map, Vector.getElem_map, invSubByte_subByte]

theorem invSubBytes_invShiftRows (st : Chunk) : 
    invSubBytes (invShiftRows (shiftRows (subBytes st))) = st := by
  rw [invShiftRows_shiftRows, invSubBytes_subBytes]

/-- The sum of four bytes in the field. -/
def xorSum (f : Fin 4 → Byte) : Byte := f 0 ^^^ f 1 ^^^ f 2 ^^^ f 3

theorem xorSum_comm (f : Fin 4 → Fin 4 → Byte) :
    xorSum (fun k => xorSum fun j => f k j) = xorSum fun j => xorSum fun k => f k j := by
  simp only [xorSum]
  ac_rfl

theorem gmul_xorSum (f : Fin 4 → Byte) (m : Byte) : gmul (xorSum f) m = xorSum fun j => gmul (f j) m := by
  simp only [xorSum, gmul_xor]

theorem xorSum_ite_eq (f : Fin 4 → Byte) (r : Fin 4) : xorSum (fun j => if j = r then f j else 0) = f r := by
  fin_cases r <;> simp [xorSum]

theorem xorSum_sub (f : Fin 4 → Byte) (r : Fin 4) : xorSum (fun k => f (k - r)) = xorSum f := by
  match r with
  | 0 => rfl
  | 1 =>
    show f 3 ^^^ f 0 ^^^ f 1 ^^^ f 2 = f 0 ^^^ f 1 ^^^ f 2 ^^^ f 3
    ac_rfl
  | 2 =>
    show f 2 ^^^ f 3 ^^^ f 0 ^^^ f 1 = f 0 ^^^ f 1 ^^^ f 2 ^^^ f 3
    ac_rfl
  | 3 =>
    show f 1 ^^^ f 2 ^^^ f 3 ^^^ f 0 = f 0 ^^^ f 1 ^^^ f 2 ^^^ f 3
    ac_rfl

/-- The first row of the forward column mix's matrix (93_implementation_defined.md G10). Each next row is the one before it,
rotated right by one. -/
def mixFirstRow : Vector Byte 4 := #v[0x02, 0x03, 0x01, 0x01]

/-- The first row of the inverse column mix's matrix (R114), whose rows rotate in the same way. -/
def invMixFirstRow : Vector Byte 4 := #v[0x0E, 0x0B, 0x0D, 0x09]

theorem cell_mixColumns (st : Chunk) (r c : Fin 4) :
    cell (mixColumns st) r c = xorSum fun j => gmul (cell st j c) mixFirstRow[j - r] := by
  rw [mixColumns, cell_ofCells]
  fin_cases r <;> rfl

theorem cell_invMixColumns_eq_xorSum (st : Chunk) (r c : Fin 4) :
    cell (invMixColumns st) r c = xorSum fun j => gmul (cell st j c) invMixFirstRow[j - r] := by
  rw [invMixColumns, cell_ofCells]
  fin_cases r <;> rfl

/-- The first rows convolve to 1 at 0 and to 0 elsewhere. -/
theorem xorSum_firstRows (a : Byte) (d : Fin 4) :
    xorSum (fun l => gmul (gmul a mixFirstRow[d - l]) invMixFirstRow[l]) = if d = 0 then a else 0 := by
  revert a d
  decide +kernel

/-- The two matrices are inverse: entry `(r, j)` of their product, applied to a byte. -/
theorem xorSum_mixProduct (a : Byte) (r j : Fin 4) :
    xorSum (fun k => gmul (gmul a mixFirstRow[j - k]) invMixFirstRow[k - r]) = if j = r then a else 0 := by
  have hshift := xorSum_sub (fun l => gmul (gmul a mixFirstRow[j - r - l]) invMixFirstRow[l]) r
  simpa only [sub_sub_sub_cancel_right, xorSum_firstRows, sub_eq_zero] using hshift

theorem invMixColumns_mixColumns (st : Chunk) : invMixColumns (mixColumns st) = st := by
  refine eq_of_cell_eq fun r c => ?_
  simp only [cell_invMixColumns_eq_xorSum, cell_mixColumns, gmul_xorSum]
  rw [xorSum_comm]
  simp only [xorSum_mixProduct]
  exact xorSum_ite_eq (cell st · c) r

/-! ### Runs of rounds (R116; 90_conflicts.md C4) -/

/-- A round with the column mix, on the state and the round key. -/
def fwdRound (x : Chunk × Chunk) (rc : Byte) : Chunk × Chunk :=
  (addRoundKey (mixColumns (shiftRows (subBytes x.1))) (expandStep x.2 rc), expandStep x.2 rc)

theorem foldl_fwdRound_snd (rcs : List Byte) (x : Chunk × Chunk) :
    (rcs.foldl fwdRound x).2 = rcs.foldl expandStep x.2 := by
  induction rcs generalizing x with
  | nil => rfl
  | cons rc rcs ih => rw [List.foldl_cons, List.foldl_cons, ih, fwdRound]

/-- The forward cipher is rounds with the column mix, and a last one without it. -/
theorem fwdRounds_append_last (rcs : List Byte) (rc : Byte) (x : Chunk × Chunk) :
    fwdRounds (rcs ++ [rc]) x.1 x.2 =
      addRoundKey (shiftRows (subBytes (rcs.foldl fwdRound x).1)) (expandStep (rcs.foldl fwdRound x).2 rc) := by
  induction rcs generalizing x with
  | nil => rw [List.nil_append, fwdRounds_last, List.foldl_nil]
  | cons rc' rcs ih =>
    have hround : fwdRounds (rc' :: (rcs ++ [rc])) x.1 x.2 =
        fwdRounds (rcs ++ [rc]) (fwdRound x rc').1 (fwdRound x rc').2 := by
      cases rcs <;> exact fwdRounds_more ..
    rw [List.cons_append, hround, ih, List.foldl_cons]

/-- The inverse rounds, from the last forward round's state before its key is added, end on the first state with the first
key added. -/
theorem invRounds_foldl_fwdRound (rcs : List Byte) (rc : Byte) (x : Chunk × Chunk) :
    invRounds (rc :: rcs.reverse) (shiftRows (subBytes (rcs.foldl fwdRound x).1))
      (expandStep (rcs.foldl fwdRound x).2 rc) = (addRoundKey x.1 x.2, x.2) := by
  induction rcs using List.reverseRecOn generalizing rc with
  | nil => rw [List.reverse_nil, invRounds_last, invSubBytes_invShiftRows, expandBack_expandStep, List.foldl_nil]
  | append_singleton rcs rc' ih =>
    rw [List.reverse_concat, invRounds_more, invSubBytes_invShiftRows, expandBack_expandStep, List.foldl_concat]
    generalize rcs.foldl fwdRound x = y at ih ⊢
    rw [fwdRound, addRoundKey_addRoundKey, invMixColumns_mixColumns, ih]

/-- The round keys of the inverse cipher do not depend on its state. -/
theorem invRounds_snd (rcs : List Byte) (st k : Chunk) : (invRounds rcs st k).2 = rcs.foldl expandBack k := by
  induction rcs generalizing st k with
  | nil => rfl
  | cons rc rcs ih => rw [invRounds, ih, List.foldl_cons]

theorem invCipher_deriveStart_snd (ciphertext k : Chunk) : (invCipher ciphertext (deriveStart k)).2 = k := by
  rw [invCipher, invRounds_snd, deriveStart_eq, rconBack_eq, foldl_expandBack_foldl_expandStep]

theorem invCipher_aesEncrypt (plaintext key : Chunk) :
    (invCipher (aesEncrypt plaintext key) (deriveStart key)).1 = plaintext := by
  have hrcs : rconFwd = rconFwd.dropLast ++ [0x36] := rfl
  have hback : rconBack = 0x36 :: rconFwd.dropLast.reverse := rfl
  have hstart : deriveStart key =
      expandStep (rconFwd.dropLast.foldl fwdRound (addRoundKey plaintext key, key)).2 0x36 := by
    rw [foldl_fwdRound_snd, deriveStart_eq, hrcs, List.foldl_concat, List.dropLast_concat]
  have hcipher := fwdRounds_append_last rconFwd.dropLast 0x36 (addRoundKey plaintext key, key)
  rw [← hrcs, ← hstart] at hcipher
  rw [invCipher, aesEncrypt, hcipher, addRoundKey_addRoundKey, hback, hstart, invRounds_foldl_fwdRound,
    addRoundKey_addRoundKey]

/-! ### The two commands on an enciphered block (R117 to R119) -/

theorem exec_decrypt_of_encrypted {s : State} {plaintext key : Chunk} (hstate : s.keyState = .start)
    (hkey : s.key = deriveStart key) (hblock : s.block = aesEncrypt plaintext key) :
    ∃ t, exec .decrypt s = .next t ∧ t.block = plaintext ∧ t.keyState = .spent := by
  have hnext := exec_decrypt_of_start hstate
  have hplain : (invCipher s.block s.key).1 = plaintext := by rw [hblock, hkey, invCipher_aesEncrypt]
  exact ⟨_, hnext, (exec_decrypt_block hnext hstate).trans hplain, exec_decrypt_keyState hnext⟩

/-! ### The statements -/

/-- Settles O47: the addition chain keeps 0, and the product of any other byte with its inverse is 1. -/
theorem fieldInverseInverts : Obligations.FieldInverseInverts := by
  unfold Obligations.FieldInverseInverts
  exact ⟨by decide +kernel, fun x => gmul_ginv⟩

/-- Settles O48: `half` and `xtime` undo each other on every byte, and the ten constants are a chain as they stand. -/
theorem roundConstantsAreChains : Obligations.RoundConstantsAreChains := by
  unfold Obligations.RoundConstantsAreChains
  exact ⟨fun a => ⟨half_xtime a, xtime_half a⟩, rconBack_eq, rfl, by decide, by decide⟩

/-- Settles O52: the last three words first, then the first word, whose sum needs the last. -/
theorem expandBackUndoesExpandStep : Obligations.ExpandBackUndoesExpandStep := by
  unfold Obligations.ExpandBackUndoesExpandStep
  exact fun k rc => ⟨expandBack_expandStep k rc, expandStep_expandBack k rc⟩

/-- Settles O53: the backward constants are the forward ones reversed, and the start key is the run of all ten. -/
theorem roundKeysAreRegenerated : Obligations.RoundKeysAreRegenerated := by
  unfold Obligations.RoundKeysAreRegenerated
  refine ⟨fun k j _ => ?_, invCipher_deriveStart_snd⟩
  rw [deriveStart_eq, rconBack_eq]
  exact foldl_take_expandBack rconFwd k j

/-- Settles O54: the inverse rounds undo the forward ones, and the two commands are their start key and them. -/
theorem decryptionInvertsEncryption : Obligations.DecryptionInvertsEncryption := by
  unfold Obligations.DecryptionInvertsEncryption
  refine ⟨invCipher_aesEncrypt, fun s plaintext hk hblock => ?_⟩
  let t := ((s.setKey (deriveStart s.key)).setKeyState .start).setErrcode 0x00
  have hderive : exec .keyDerive s = .next t := exec_keyDerive_of_raw hk
  obtain ⟨u, hdecrypt, hplain, -⟩ := exec_decrypt_of_encrypted (s := t) (key := s.key) rfl rfl hblock
  exact ⟨t, u, hderive, hdecrypt, hplain⟩

end Sys2Proof.Machine
end

section
/-!
Proofs of the statements on CRC-24 as a whole and on the chunk pipeline (42_crc.md section 3; 70_reset_and_hazards.md
section 2). First the step that feeds a CRC its own top byte, then the chunk that the transmitter builds and the generator
fed byte by byte, then the statements.
-/

namespace Sys2Proof.Machine

open Sys2Proof.Claims

variable {s : State}

/-! ### The residue law: a byte that cancels the top of the register shifts it (R130) -/

theorem crcShift_of_lt {c : BitVec 25} (h : c.toNat * 2 < 2 ^ 24) : crcShift c = c <<< 1 := by
  have hnat : (c <<< 1).toNat < 2 ^ 24 := by
    rw [BitVec.toNat_shiftLeft, Nat.shiftLeft_eq]
    omega
  have hbit : (c <<< 1).getLsbD 24 = false := Nat.testBit_lt_two_pow hnat
  rw [crcShift, hbit, if_neg Bool.false_ne_true]

/-- While nothing reaches bit 24, the generator only shifts. -/
theorem crcShifts_of_lt {n : Nat} {c : BitVec 25} (h : c.toNat * 2 ^ n < 2 ^ 24) : crcShifts n c = c <<< n := by
  induction n generalizing c with
  | zero => simp [crcShifts]
  | succ n ih =>
    have hpow : c.toNat * 2 ≤ c.toNat * 2 ^ (n + 1) := Nat.mul_le_mul_left _ (Nat.le_self_pow (Nat.succ_ne_zero n) 2)
    have hnat : (c <<< 1).toNat = c.toNat * 2 := by
      rw [BitVec.toNat_shiftLeft, Nat.shiftLeft_eq]
      omega
    have hnext : (c <<< 1).toNat * 2 ^ n < 2 ^ 24 := by rwa [hnat, mul_assoc, ← pow_succ']
    rw [crcShifts, crcShift_of_lt (hpow.trans_lt h), ih hnext, ← BitVec.shiftLeft_add, Nat.add_comm]

/-- The byte is added to the register's top byte, and the other two move up. -/
theorem crc24Step_top (x y z : Byte) : crc24Step (x ++ y ++ z) x = y ++ z ++ (0 : Byte) := by
  have hcancel : (x ++ y ++ z : Word24).setWidth 25 ^^^ (x.setWidth 25 <<< 16) = (y ++ z : BitVec 16).setWidth 25 := by
    ext i hi
    simp only [BitVec.getElem_xor, BitVec.getElem_setWidth, BitVec.getElem_shiftLeft, BitVec.getLsbD_append]
    grind
  have hlt : ((y ++ z : BitVec 16).setWidth 25).toNat * 2 ^ 8 < 2 ^ 24 := by
    have hyz := (y ++ z : BitVec 16).isLt
    rw [BitVec.toNat_setWidth]
    omega
  rw [crc24Step, hcancel, crcShifts_of_lt hlt]
  ext i hi
  simp only [BitVec.getElem_setWidth, BitVec.getLsbD_shiftLeft, BitVec.getLsbD_setWidth,
    BitVec.getLsbD_append]
  grind

theorem foldl_crc24Step_own_bytes (x y z : Byte) : [x, y, z].foldl crc24Step (x ++ y ++ z) = 0 := by
  simp only [List.foldl_cons, List.foldl_nil, crc24Step_top]
  rfl

/-! ### The chunk that the transmitter builds (R138) -/

variable (l : Vector Byte 13)

theorem buildChunk_getElem_of_lt {i : Nat} (h : i < 3) : (buildChunk l)[i] = byteOf24 (crc24 l.toList) ⟨i, h⟩ := by
  simp [buildChunk, byteOf24, h]

theorem buildChunk_getElem_add_three {i : Nat} (h : i < 13) :
    (buildChunk l)[i + 3] = l[i] ^^^ unmaskByte (crc24 l.toList) (i + 3) := by
  simp [buildChunk]

theorem embeddedCrc_buildChunk : embeddedCrc (buildChunk l) = crc24 l.toList := by
  rw [embeddedCrc, buildChunk_getElem_of_lt l (by decide), buildChunk_getElem_of_lt l (by decide),
    buildChunk_getElem_of_lt l (by decide)]
  exact byteOf24_join _

theorem unmask_buildChunk_getElem {i : Nat} (h : i < 13) : (unmask (buildChunk l))[i + 3] = l[i] := by
  rw [unmask_getElem, if_neg (by omega), embeddedCrc_buildChunk, buildChunk_getElem_add_three l h, xor_xor_cancel_right]

theorem logicalBytes_unmask_buildChunk : logicalBytes (unmask (buildChunk l)) = l.toList := by
  refine List.ext_getElem (by simp [logicalBytes]) fun i _ hi => ?_
  have h13 : i < 13 := by simpa using hi
  simpa [logicalBytes, Nat.add_comm 3] using unmask_buildChunk_getElem l h13

theorem exec_validate_next (s : State) :
    exec .validate s = .next (((((s.setBlock (unmask s.block)).setCrcEmb (embeddedCrc s.block)).setCrcCalc
      (crc24 (logicalBytes (unmask s.block)))).setValid
      (crcAgrees (embeddedCrc s.block) (crc24 (logicalBytes (unmask s.block))))).setErrcode 0x00) :=
  (exec_validate s).trans (execValidate_eq s)

theorem exec_validate_errcode {t : State} (h : exec .validate s = .next t) : t.errcode = 0x00 := by
  obtain rfl := Host.Outcome.next.inj ((exec_validate_next s).symm.trans h)
  rfl

/-! ### The generator fed byte by byte (R139) -/

/-- After the first byte DIN holds the last one, and ERRCODE is what CRC_INIT left. -/
theorem feed_setErrcode_zero (bytes : List Byte) (s : State) :
    ∃ d, feed bytes (s.setErrcode 0x00) =
      .next (((s.setDin d).setCrcAcc (bytes.foldl crc24Step s.crcAcc)).setErrcode 0x00) := by
  induction bytes generalizing s with
  | nil => exact ⟨s.din, rfl⟩
  | cons b bytes ih =>
    obtain ⟨d, hfeed⟩ := ih ((s.setDin b).setCrcAcc (crc24Step s.crcAcc b))
    exact ⟨d, hfeed⟩

/-! ### The statements -/

/-- Settles O57: the three appended bytes are the register's own, and each cancels its top byte in turn. -/
theorem appendedCrcGivesZero : Obligations.AppendedCrcGivesZero := by
  unfold Obligations.AppendedCrcGivesZero
  intro m
  have hzero := foldl_crc24Step_own_bytes (byteOf24 (crc24 m) 0) (byteOf24 (crc24 m) 1) (byteOf24 (crc24 m) 2)
  rw [byteOf24_join] at hzero
  exact (crc24_append m _).trans hzero

/-- Settles O58: unmasking removes the mask that the transmitter's CRC keys, and that CRC is of the bytes it uncovers. -/
theorem builtChunkValidates : Obligations.BuiltChunkValidates := by
  unfold Obligations.BuiltChunkValidates
  intro s l hblock
  have hnext := exec_validate_next s
  rw [hblock, embeddedCrc_buildChunk, logicalBytes_unmask_buildChunk] at hnext
  exact ⟨_, hnext, decide_eq_true rfl, rfl, rfl, fun i => unmask_buildChunk_getElem l i.isLt⟩

/-- Settles O59, by induction on the bytes fed. -/
theorem generatorComputesCrc24 : Obligations.GeneratorComputesCrc24 := by
  unfold Obligations.GeneratorComputesCrc24
  intro bytes s
  obtain ⟨d, hfeed⟩ := feed_setErrcode_zero bytes (s.setCrcAcc crcInitial)
  exact ⟨_, _, (exec_crcInit s).trans (execCrcInit_eq s), hfeed, (crc24_eq_foldl bytes).symm, rfl⟩

/-- Settles O60: COND_BLOCK restores what was enciphered, DECRYPT the chunk that was built, and that chunk validates. -/
theorem transmittedChunkComesOutValid : Obligations.TransmittedChunkComesOutValid := by
  unfold Obligations.TransmittedChunkComesOutValid
  intro s c l hc hk hblock
  let t₁ := ((s.setKey (deriveStart s.key)).setKeyState .start).setErrcode 0x00
  let t₂ := (t₁.setBlock (aesEncrypt (buildChunk l) s.key)).setErrcode 0x00
  have hderive : exec .keyDerive s = .next t₁ := exec_keyDerive_of_raw hk
  have hcond : exec .condBlock t₁ = .next t₂ := condBlockUndoesTheTransmitter t₁ c _ hc hblock
  obtain ⟨t₃, hdecrypt, hbuilt, hspent⟩ := exec_decrypt_of_encrypted (s := t₂) (key := s.key) rfl rfl rfl
  obtain ⟨t₄, hvalidate, hvalid, hemb, -, hbytes⟩ := builtChunkValidates t₃ l hbuilt
  have hkeyState : t₄.keyState = t₃.keyState := exec_keyState_frame hvalidate nofun nofun
  exact ⟨t₁, t₂, t₃, t₄, hderive, hcond, hdecrypt, hvalidate, hvalid, hemb, hbytes, hkeyState.trans hspent,
    exec_validate_errcode hvalidate⟩

end Sys2Proof.Machine
end
